-- ==== Sys2Proof/Word.lean ====
section
/-! DEFINITION. The widths of the hardware (00_scope.md R6): 64-bit registers, a 128-bit accumulator. -/

namespace Sys2Proof

/-- An operand, result, command or status word: `W` = 64 bits, unsigned (R6, R7). -/
abbrev Word := BitVec 64

/-- The accumulator: `ACCW` = 128 bits, unsigned (R6, R26). -/
abbrev Acc := BitVec 128

/-- The field ERRCODE: 4 bits (R23, R31). -/
abbrev ErrCode := BitVec 4

end Sys2Proof
end

