-- ==== Sys2Proof/Config.lean ====
section
/-! DEFINITION. The open parameters of 00_scope.md R6 that the model takes as constants without a value.
Nothing can be proved of what they are, so a theorem holds whatever they are. -/

namespace Sys2Proof

/-- `ACC_DRAW` (R6, R26, R98; U2): the value that the `k`-th draw leaves in ACC at the completion of
POWMOD, MRTEST or ISPRIME. Free; log 3. -/
opaque Config.accDraw : Nat → Acc

/-- `BUSY_READ_DRAW` (R6, R52; U3): the value that the `k`-th draw gives to a read of RESULT, ACC_LO
or ACC_HI while BUSY = 1. Free; log 4. -/
opaque Config.busyReadDraw : Nat → Word

/-- Which 64-byte block of a byte-addressed platform holds the registers (R51). Free; log 11. -/
opaque Config.windowPage : Nat

/-- `BASE` (R51): the window's first byte address, "a multiple of 64". -/
def Config.base : Nat := 64 * Config.windowPage

end Sys2Proof
end

