-- ==== Sys2Proof/Syntax.lean ====
section
/-! DEFINITION. The commands of the block: one constructor for each row of the opcode table (30_encoding.md R71). -/

namespace Sys2Proof

/-- A command. "There are no register-number fields, no immediate fields, no mode bits and no function
fields" (R70): a command's operands are the fixed registers of R72, so no constructor has an argument. -/
inductive Instr where
  /-- `mulmod(A, B, M)`, unit MM (R94). -/
  | mulmod
  /-- `powmod(A, B, M)`, unit ME (R114). -/
  | powmod
  /-- `mr7(M)`, unit MR, the Miller-Rabin stage alone (R142). -/
  | mrtest
  /-- `is_prime(M)`, unit MR, the whole predicate (R143). -/
  | isprime
  deriving DecidableEq, Repr

end Sys2Proof
end

