-- ==== Sys2Proof/WellFormed.lean ====
section
/-! DEFINITION. The checks of the spec on raw data: which words are commands, which operands a command's
function is defined on, which transfers of a byte-addressed platform are whole-register accesses.
A command itself has no fields (R70), so as syntax every `Instr` is well-formed. -/

namespace Sys2Proof

/-- A command word is legal exactly when `v[63:8] = 0` and `v[7:0]` is one of the four opcodes (R71).
Said of the word alone; the decoder is written apart from it. -/
def legalWord (v : Word) : Bool :=
  v.extractLsb' 8 56 == 0 && [0x01, 0x02, 0x03, 0x04].contains (v.extractLsb' 0 8)

/-- The domain of the reducing functions, `m >= 1` (R92, R93, R110): the check of ZERO_MODULUS (R161). -/
abbrev ModulusOk (m : Word) : Prop := m ≠ 0

/-- The domain of the Miller-Rabin functions, odd and at least 3 (R135, R136, R137): the check of MR_DOMAIN (R161). -/
abbrev MrDomain (n : Word) : Prop := 3 ≤ n ∧ n.getLsbD 0 = true

/-- A modulus with its domain: `x mod 0` has no value in the model (R8; U6; log 9). -/
structure Modulus where
  val : Word
  ok  : ModulusOk val
  deriving DecidableEq, Repr

/-- A number that the Miller-Rabin functions are defined on (R135, R137; U6; log 9). -/
structure MrNumber where
  val : Word
  ok  : MrDomain val
  deriving DecidableEq, Repr

theorem MrNumber.modulusOk (n : MrNumber) : ModulusOk n.val := by
  intro h
  have h3 := n.ok.1
  rw [h] at h3
  exact absurd h3 (by decide)

/-- "the modulus of every multiplication the test performs" is the number under test (R72). -/
def MrNumber.modulus (n : MrNumber) : Modulus := ⟨n.val, n.modulusOk⟩

/-- A transfer of `len` bytes at `addr` touches the window of 64 bytes at `base` (R51). -/
def touchesWindow (base addr len : Nat) : Bool :=
  decide (addr < base + 64) && decide (base < addr + len) && decide (0 < len)

/-- The only transfers aimed at the window that reach the block: "8 bytes wide at addresses that are
multiples of 8 inside the 64-byte window" (R55). -/
def wholeRegister (base addr len : Nat) : Bool :=
  decide (base ≤ addr) && decide (addr < base + 64) && decide (len = 8) && decide ((addr - base) % 8 = 0)

end Sys2Proof
end

