-- ==== Sys2Proof/Decode.lean ====
section
/-! DEFINITION. The decoder of a command word (30_encoding.md R71, R77), and the encoder. -/

namespace Sys2Proof

/-- Why a word is no command; both are ILLEGAL_CMD (R76, R161). -/
inductive IllegalWord where
  /-- `v[63:8] != 0`. -/
  | reservedBits
  /-- `v[63:8] = 0` and `v[7:0]` is 0x00 or in 0x05 to 0xFF. -/
  | unassignedOpcode
  deriving DecidableEq, Repr

/-- `OPCODE`, bits 7:0 of a command word (R70). -/
def opcodeField (v : Word) : BitVec 8 := v.extractLsb' 0 8

/-- `RSVD`, bits 63:8 of a command word (R70). -/
def reservedField (v : Word) : BitVec 56 := v.extractLsb' 8 56

/-- The opcode map (R71). The completion step selects by it on `CMD[7:0]` alone (R151). -/
def decodeOpcode (op : BitVec 8) : Option Instr :=
  if op = 0x01 then some .mulmod
  else if op = 0x02 then some .powmod
  else if op = 0x03 then some .mrtest
  else if op = 0x04 then some .isprime
  else none

/-- "Decoding is total" (R77): the reserved bits first, then the opcode. -/
def decodeWord (v : Word) : Except IllegalWord Instr :=
  if reservedField v ≠ 0 then .error .reservedBits
  else match decodeOpcode (opcodeField v) with
    | some i => .ok i
    | none => .error .unassignedOpcode

/-- The word of a command: the match column of R71. -/
def encode : Instr → Word
  | .mulmod  => 0x0000000000000001
  | .powmod  => 0x0000000000000002
  | .mrtest  => 0x0000000000000003
  | .isprime => 0x0000000000000004

/-- A row of the opcode table: a word `v` is the row's command when `v &&& mask = pattern` (R71). -/
structure TableRow where
  instr   : Instr
  mask    : Word
  pattern : Word
  deriving DecidableEq, Repr

/-- The opcode table as R71 and opcode_table.json give it; the mask is all ones. -/
def opcodeTable : List TableRow :=
  [⟨.mulmod,  0xFFFFFFFFFFFFFFFF, 0x0000000000000001⟩,
   ⟨.powmod,  0xFFFFFFFFFFFFFFFF, 0x0000000000000002⟩,
   ⟨.mrtest,  0xFFFFFFFFFFFFFFFF, 0x0000000000000003⟩,
   ⟨.isprime, 0xFFFFFFFFFFFFFFFF, 0x0000000000000004⟩]

/-- The command word whose bits, numbered as the opcode table numbers them, are the `nbits` low bits of `w`.
The word goes to the block whole (R54, R78): there is no byte order to lay it out in. Log 17. -/
def tableWord (nbits w : Nat) : Word := BitVec.ofNat 64 (w % 2 ^ nbits)

/-- What the decoder reads from an instruction of `nbits` bits `w`; a command is never longer than
64 bits (R78). Log 17. -/
def decodeTableWord (nbits w : Nat) : Option Instr :=
  if nbits ≤ 64 then (decodeWord (tableWord nbits w)).toOption else none

end Sys2Proof
end

