-- ==== Sys2Proof/Machine/State.lean ====
section
/-! DEFINITION. The state of the block (10_state.md R31) with the agents beside it (R10), plain data; why a step
may stop; the state after reset (R30). -/

namespace Sys2Proof.Machine

/-- The eight interface registers, in the order of their indices 0 to 7 (R20). -/
inductive Reg where
  | a | b | m | cmd | status | result | accLo | accHi
  deriving DecidableEq, Repr

/-- The causes of an error completion (60_exceptions.md R161). -/
inductive ErrCause where
  | illegalCmd | zeroModulus | mrDomain
  deriving DecidableEq, Repr

/-- One access of the host, in the notation of 30_encoding.md R79, and the two transfers of a
byte-addressed platform (R9, R51). -/
inductive HostAction where
  /-- `RD <reg>`: `RegRead(i)`. -/
  | rd (r : Reg)
  /-- `WR <reg>, <value>`: `RegWrite(i, value)`. -/
  | wr (r : Reg) (v : Word)
  /-- `WAIT`: repeat `RD STATUS` until the value read has bit 1 (DONE) = 1. -/
  | wait
  /-- `MemRead(addr, len)`. -/
  | memRead (addr len : Nat)
  /-- `MemWrite(addr, len, v)`. -/
  | memWrite (addr len : Nat) (v : Word)
  deriving DecidableEq, Repr

/-- `RESET_DATA` (R6): "six free 64-bit inputs of the reset step" (R30). -/
structure ResetData where
  a      : Word
  b      : Word
  m      : Word
  result : Word
  accLo  : Word
  accHi  : Word
  deriving DecidableEq, Repr

/-- Whose event comes next in the one total order (R10, R59). -/
inductive Turn where
  /-- The host makes its next access. -/
  | host
  /-- The block takes its completion step, if a command is in progress (R151). -/
  | block
  /-- The environment resets the block (R180). -/
  | reset (d : ResetData)
  deriving DecidableEq, Repr

/-- The block's record (R31), field by field, then the model's own fields: what the host's last read
returned, how many free values have been drawn, what the host has still to do, and whose turn is next. -/
structure State where
  /-- Register A (R20, R21). -/
  a       : Word
  /-- Register B (R20, R21). -/
  b       : Word
  /-- Register M (R20, R21). -/
  m       : Word
  /-- Register CMD (R22). -/
  cmd     : Word
  /-- Register RESULT (R25). -/
  result  : Word
  /-- ACC, read as ACC_LO and ACC_HI (R26). -/
  acc     : Acc
  /-- STATUS.BUSY, which is the phase (R23, R28). -/
  busy    : Bool
  /-- STATUS.DONE (R23). -/
  done    : Bool
  /-- STATUS.ERR (R23). -/
  err     : Bool
  /-- STATUS.OVR (R23). -/
  ovr     : Bool
  /-- STATUS.ERRCODE (R23, R161). -/
  errCode : ErrCode
  /-- The model's own: the value the host's last read returned (R52; log 7). -/
  rdata   : Word
  /-- The model's own: the number of free values drawn so far (R9 `draw_N()`; log 3). -/
  draws   : Nat
  /-- The model's own: the host's accesses still to come, in program order (R59; log 5). -/
  host    : List HostAction
  /-- The model's own: whose turn it is, in order; when it is empty the block comes first while it is
  busy, and else the host (R152; log 5). -/
  turns   : List Turn
  deriving DecidableEq, Repr

/-- The machine stops. The block has no traps (R160): an error completion is a next state. -/
inductive Fault where
  /-- Raised by the completion step when `CMD[7:0]` is no opcode. "No other value of `CMD[7:0]` can occur
  while `BUSY = 1`" (R151), so no run meets it. Safe: a stop (log 10). -/
  | noCommandInProgress
  deriving DecidableEq, Repr

/-- The model gives no meaning. -/
inductive Refusal where
  /-- Raised by an arm of `exec` whose instruction has no meaning yet. Safe: a stop. -/
  | notModelled (mnemonic : String)
  /-- Raised by the completion of MULMOD, POWMOD or MRTEST when M lies outside the function's domain: "the
  functions are partial" (R8; U6). The check at issue keeps every run from it. Safe: a stop (log 9). -/
  | operandOutsideDomain
  /-- Raised by a host's transfer aimed at the window that is no whole-register access: what a platform does
  with it "is the platform's" (R55). Safe: a stop (log 11). -/
  | platformTransfer
  deriving DecidableEq, Repr

/-- The machine right after reset (R30): CMD and STATUS are zero, the block is idle. The spec leaves A, B, M,
RESULT and ACC unspecified; they are zero here by DESIGN CHOICE (log 1). The model's own fields are
empty (log 3, log 5, log 7). -/
def State.reset : State where
  a := 0
  b := 0
  m := 0
  cmd := 0
  result := 0
  acc := 0
  busy := false
  done := false
  err := false
  ovr := false
  errCode := 0
  rdata := 0
  draws := 0
  host := []
  turns := []

end Sys2Proof.Machine
end

