-- ==== Sys2Proof/Machine/Flags.lean ====
section
/-! DEFINITION. The STATUS register: its layout (10_state.md R23) and every way its flags change (R24). -/

namespace Sys2Proof.Machine

/-- `zext_64({ERRCODE[3:0], OVR, ERR, DONE, BUSY})` (20_memory.md R52). -/
def statusWord (s : State) : Word :=
  (s.errCode ++ BitVec.ofBool s.ovr ++ BitVec.ofBool s.err ++ BitVec.ofBool s.done ++ BitVec.ofBool s.busy).setWidth 64

/-- Bit 1 of a STATUS value: DONE, which `WAIT` tests (R23, R79). -/
def doneBit (v : Word) : Bool := v.getLsbD 1

/-- Bit 3 of a value written to STATUS: the only bit that acts (R23). -/
def clearsOvr (v : Word) : Bool := v.getLsbD 3

/-- The flags at acceptance: `BUSY <- 1 ; DONE <- 0 ; ERR <- 0 ; ERRCODE <- 0` (R150). -/
def flagsAccepted (s : State) : State :=
  { s with busy := true, done := false, err := false, errCode := 0 }

/-- The flags at completion: `BUSY <- 0 ; DONE <- 1`; ERR, ERRCODE and OVR are not written (R151). -/
def flagsCompleted (s : State) : State :=
  { s with busy := false, done := true }

/-- The flags at error completion: `BUSY <- 0 ; DONE <- 1 ; ERR <- 1 ; ERRCODE <- c` (R150, R164). -/
def flagsError (code : ErrCode) (s : State) : State :=
  { s with busy := false, done := true, err := true, errCode := code }

/-- A dropped write: `OVR <- 1` and nothing else (R53, R162). -/
def flagOverrun (s : State) : State := { s with ovr := true }

/-- A host write of `v` to STATUS: "if it is 1, OVR becomes 0; if it is 0, nothing happens" (R23, of bit 3). -/
def writeStatus (v : Word) (s : State) : State :=
  if clearsOvr v then { s with ovr := false } else s

end Sys2Proof.Machine
end

