-- ==== Sys2Proof/Machine/Operands.lean ====
section
/-! DEFINITION. Operand assembly (30_encoding.md R72): each command reads whole registers; and the form in which
a verdict becomes a result (R75). -/

namespace Sys2Proof.Machine

/-- M as the modulus of MULMOD and POWMOD (R72); none when `M = 0`, which is ZERO_MODULUS (R161). -/
def modulusOperand (s : State) : Option Modulus :=
  if h : ModulusOk s.m then some ⟨s.m, h⟩ else none

/-- M as the number under test of MRTEST (R72); none when `M < 3` or `M[0] = 0`, which is MR_DOMAIN (R161). -/
def mrOperand (s : State) : Option MrNumber :=
  if h : MrDomain s.m then some ⟨s.m, h⟩ else none

/-- `zext_64` of a verdict: 1 for true, 0 for false, bits 63:1 zero (R75). -/
def verdictWord (b : Bool) : Word := (BitVec.ofBool b).setWidth 64

end Sys2Proof.Machine
end

