-- ==== Sys2Proof/Machine/Ops.lean ====
section
/-! DEFINITION. The named operations over the registers: reading them (20_memory.md R52), acceptance, error
completion and delivery of a result (43 R150, R151), the reset step (70 R181). -/

namespace Sys2Proof.Machine

/-! ### The way into a command and out of it -/

/-- `accept` (R150): the command is in progress. It is also the way out of the error state (R166). -/
def acceptCommand (s : State) : State := flagsAccepted s

/-- The code of a cause (R161). -/
def ErrCause.code : ErrCause → ErrCode
  | .illegalCmd  => 1
  | .zeroModulus => 2
  | .mrDomain    => 3

/-- Error completion, `raise <Error>(c)` (R150, R164): the block's one exceptional event. It saves nothing and
transfers control nowhere; RESULT, ACC, A, B, M and OVR keep their values (R165). -/
def raiseError (c : ErrCause) (s : State) : State := flagsError c.code s

/-- Completion with a defined accumulator, MULMOD's (R94, R151). -/
def deliver (res : Word) (acc : Acc) (s : State) : State :=
  flagsCompleted { s with result := res, acc := acc }

/-- Completion that leaves `draw_128()` in ACC (R26, R114, R142, R143, R151): a fresh free value (log 3). -/
def deliverDrawn (res : Word) (s : State) : State :=
  deliver res (Config.accDraw s.draws) { s with draws := s.draws + 1 }

/-! ### Reading a register -/

/-- RESULT, ACC_LO and ACC_HI are not readable while busy (R52 cases 5 to 7, R186). -/
def Reg.drawnWhileBusy : Reg → Bool
  | .result | .accLo | .accHi => true
  | .a | .b | .m | .cmd | .status => false

/-- What the register holds (R52, the values of an idle read). -/
def storedValue (r : Reg) (s : State) : Word :=
  match r with
  | .a      => s.a
  | .b      => s.b
  | .m      => s.m
  | .cmd    => s.cmd
  | .status => statusWord s
  | .result => s.result
  | .accLo  => s.acc.extractLsb' 0 64
  | .accHi  => s.acc.extractLsb' 64 64

/-- `RegRead(i)` (R52): the host receives the value and no register changes. A read of RESULT, ACC_LO or ACC_HI
while busy returns `draw_64()`, a fresh free value at each read (log 4). -/
def regRead (r : Reg) (s : State) : State :=
  if s.busy && r.drawnWhileBusy then
    { s with rdata := Config.busyReadDraw s.draws, draws := s.draws + 1 }
  else
    { s with rdata := storedValue r s }

/-! ### Reset -/

/-- The reset step (R181) with its six data values (R30). It acts on the block in any state (R180); a command in
progress is abandoned (R182). What the host has read and has still to do is not the block's (log 2). -/
def resetStep (d : ResetData) (s : State) : State :=
  { s with
    a := d.a, b := d.b, m := d.m, cmd := 0
    result := d.result, acc := d.accHi ++ d.accLo
    busy := false, done := false, err := false, ovr := false, errCode := 0 }

/-! ### The register space -/

/-- The register of an index: all eight values of the 3-bit index are used (R20, R50). -/
def Reg.ofIndex (i : Fin 8) : Reg :=
  match i with
  | 0 => .a
  | 1 => .b
  | 2 => .m
  | 3 => .cmd
  | 4 => .status
  | 5 => .result
  | 6 => .accLo
  | 7 => .accHi

/-- The index of a register (R20). -/
def Reg.index : Reg → Fin 8
  | .a      => 0
  | .b      => 1
  | .m      => 2
  | .cmd    => 3
  | .status => 4
  | .result => 5
  | .accLo  => 6
  | .accHi  => 7

/-- The byte address of a register in the mapped view: `BASE + 8*i` (R51). -/
def Reg.address (r : Reg) : Nat := Config.base + 8 * r.index

/-- Where a transfer of a byte-addressed platform goes. -/
inductive Target where
  /-- It is the whole-register access of this register (R51). -/
  | register (r : Reg)
  /-- It does not touch the window: "no other `addr` or `n` reaches the block" (R9), "Outside it: nothing" (R57). -/
  | outside
  /-- It touches the window and is no whole-register access: the platform's own affair (R55). -/
  | bridge
  deriving DecidableEq, Repr

/-- The mapped view (R51, R55; log 11). -/
def targetOf (addr len : Nat) : Target :=
  if wholeRegister Config.base addr len then
    .register (Reg.ofIndex (Fin.ofNat 8 ((addr - Config.base) / 8)))
  else if touchesWindow Config.base addr len then .bridge
  else .outside

end Sys2Proof.Machine
end

