-- ==== Sys2Proof/Machine/Mulmod.lean ====
section
/-! DEFINITION. Unit MM, the modular multiplier, and the command MULMOD (40_mulmod.md). -/

namespace Sys2Proof.Machine

/-- Wide multiply: `zext_128(a) * zext_128(b)`, exact (R90). -/
def wmul (a b : Word) : Acc := a.setWidth 128 * b.setWidth 128

/-- Reduction: `acc mod m`, which fits 64 bits because it is below `m` (R92). -/
def rem (acc : Acc) (m : Modulus) : Word := (acc % m.val.setWidth 128).setWidth 64

/-- The product is the exact one: "It cannot overflow 128 bits" (R90). -/
theorem wmul_toNat (a b : Word) : (wmul a b).toNat = a.toNat * b.toNat := by
  have hlt : a.toNat * b.toNat < 2 ^ 128 := by
    have := Nat.mul_lt_mul'' a.isLt b.isLt
    simpa using this
  have ha : a.toNat % 2 ^ 128 = a.toNat := Nat.mod_eq_of_lt (by have := a.isLt; omega)
  have hb : b.toNat % 2 ^ 128 = b.toNat := Nat.mod_eq_of_lt (by have := b.isLt; omega)
  rw [wmul, BitVec.toNat_mul, BitVec.toNat_setWidth, BitVec.toNat_setWidth, ha, hb, Nat.mod_eq_of_lt hlt]

theorem modulus_pos (m : Modulus) : 0 < m.val.toNat := by
  rcases Nat.eq_zero_or_pos m.val.toNat with h | h
  · exact absurd (BitVec.eq_of_toNat_eq h) m.ok
  · exact h

/-- "It always fits 64 bits because it is below `m`" (R92). -/
theorem rem_toNat (acc : Acc) (m : Modulus) : (rem acc m).toNat = acc.toNat % m.val.toNat := by
  have hm : m.val.toNat % 2 ^ 128 = m.val.toNat := Nat.mod_eq_of_lt (by have := m.val.isLt; omega)
  have hlt : acc.toNat % m.val.toNat < 2 ^ 64 := lt_trans (Nat.mod_lt _ (modulus_pos m)) m.val.isLt
  rw [rem, BitVec.toNat_setWidth, BitVec.toNat_umod, BitVec.toNat_setWidth, hm, Nat.mod_eq_of_lt hlt]

/-- `mulmod(a, b, m) = rem(wmul(a, b), m)`: the exact product, then the reduction (R91, R93). -/
def mulmod (a b : Word) (m : Modulus) : Word := rem (wmul a b) m

/-- MULMOD. Idle: the check of issue (R150). Busy: the completion, `ACC <- wmul(A, B) ; RESULT <- rem(ACC, M)`
(R94, R151). -/
def execMulmod (s : State) : Host.Outcome State Fault Refusal :=
  match s.busy, modulusOperand s with
  | false, none   => .next (raiseError .zeroModulus s)
  | false, some _ => .next (acceptCommand s)
  | true,  some m => .next (deliver (rem (wmul s.a s.b) m) (wmul s.a s.b) s)
  | true,  none   => .refused .operandOutsideDomain

end Sys2Proof.Machine
end

