-- ==== Sys2Proof/Machine/Powmod.lean ====
section
/-! DEFINITION. Unit ME, the modular exponentiator, and the command POWMOD (41_powmod.md). -/

namespace Sys2Proof.Machine

/-- `x mod m` of a 64-bit value: `rem(zext_128(x), m)` (R92, R110). -/
def reduce (x : Word) (m : Modulus) : Word := rem (x.setWidth 128) m

theorem reduce_toNat (x : Word) (m : Modulus) : (reduce x m).toNat = x.toNat % m.val.toNat := by
  have hx : x.toNat % 2 ^ 128 = x.toNat := Nat.mod_eq_of_lt (by have := x.isLt; omega)
  rw [reduce, rem_toNat, BitVec.toNat_setWidth, hx]

/-- The loop of R110 over `res`, `base`, `e`; `fuel` iterations at most. -/
def powmodLoop (m : Modulus) : Nat → Word → Word → Word → Word
  | 0, res, _, _ => res
  | fuel + 1, res, base, e =>
    if e = 0 then res
    else powmodLoop m fuel (if e.getLsbD 0 then mulmod res base m else res) (mulmod base base m) (e >>> 1)

/-- `powmod(a, b, m)` (R110). The loop runs `bitlen(b)` times, at most 64 (R115; log 14). -/
def powmod (a b : Word) (m : Modulus) : Word :=
  powmodLoop m 64 (reduce 1 m) (reduce a m) b

/-- POWMOD. Idle: the check of issue (R150). Busy: the completion, `RESULT <- powmod(A, B, M) ; ACC <- draw_128()`
(R114, R151). -/
def execPowmod (s : State) : Host.Outcome State Fault Refusal :=
  match s.busy, modulusOperand s with
  | false, none   => .next (raiseError .zeroModulus s)
  | false, some _ => .next (acceptCommand s)
  | true,  some m => .next (deliverDrawn (powmod s.a s.b m) s)
  | true,  none   => .refused .operandOutsideDomain

end Sys2Proof.Machine
end

