-- ==== Sys2Proof/Machine/Primality.lean ====
section
/-! DEFINITION. Unit MR, the deterministic Miller-Rabin tester, and the commands MRTEST and ISPRIME
(42_primality.md). -/

namespace Sys2Proof.Machine

/-! ### The constant tables -/

/-- `WIT[0..6]`, the seven bases in order (30_encoding.md R73, R131). -/
def witnesses : List Word := [2, 325, 9375, 28178, 450775, 9780504, 1795265022]

/-- `SP[0..11]`, the primes not exceeding 37 in increasing order (R74, R132); each a modulus of R139. -/
def smallPrimes : List Modulus :=
  [⟨2, by decide⟩, ⟨3, by decide⟩, ⟨5, by decide⟩, ⟨7, by decide⟩, ⟨11, by decide⟩, ⟨13, by decide⟩,
   ⟨17, by decide⟩, ⟨19, by decide⟩, ⟨23, by decide⟩, ⟨29, by decide⟩, ⟨31, by decide⟩, ⟨37, by decide⟩]

/-! ### The Miller-Rabin stage -/

/-- The loop of `decompose` (R135); `fuel` iterations at most. -/
def stripTwos : Nat → Word → Nat → Word × Nat
  | 0, d, s => (d, s)
  | fuel + 1, d, s => if d.getLsbD 0 then (d, s) else stripTwos fuel (d >>> 1) (s + 1)

/-- `decompose(n) = (d, s)` with `n - 1 = d * 2^s` and `d` odd (R135). It loops at most 63 times (R144). -/
def decompose (n : MrNumber) : Word × Nat := stripTwos 64 (n.val - 1) 0

/-- "square `x` up to" `k` "more times; if at any point `x == n - 1`, the base passes" (R136). -/
def squaresReachMinusOne (n : MrNumber) : Nat → Word → Bool
  | 0, _ => false
  | k + 1, x =>
    if mulmod x x n.modulus = n.val - 1 then true
    else squaresReachMinusOne n k (mulmod x x n.modulus)

/-- The part of one base's test that follows the skip (R136), on `x = a^d mod n`. -/
def residuePasses (n : MrNumber) (s : Nat) (x : Word) : Bool :=
  if x = 1 ∨ x = n.val - 1 then true else squaresReachMinusOne n (s - 1) x

/-- `witness_pass(a, n, d, s)`: the base `a` passes; a skipped base counts as passed (R136). -/
def witnessPass (a : Word) (n : MrNumber) (d : Word) (s : Nat) : Bool :=
  if reduce a n.modulus = 0 then true else residuePasses n s (powmod a d n.modulus)

/-- `mr7(n)`: every one of the seven bases passes, tried in order, up to the first that fails (R137). -/
def mr7 (n : MrNumber) : Bool :=
  match decompose n with
  | (d, s) => witnesses.all fun a => witnessPass a n d s

/-! ### Trial division -/

/-- The verdicts of trial division (R139). -/
inductive TrialVerdict where
  | prime | composite | undecided
  deriving DecidableEq, Repr

/-- The loop of `trial` over the rest of the table (R139). -/
def trialFrom (n : Word) : List Modulus → TrialVerdict
  | [] => .undecided
  | p :: ps =>
    if n = p.val then .prime
    else if reduce n p = 0 then .composite
    else trialFrom n ps

/-- `trial(n)` (R139). -/
def trial (n : Word) : TrialVerdict := trialFrom n smallPrimes

/-! ### The predicate -/

/-- An undecided number is no entry of the table and is divided by none (R139). -/
theorem trialFrom_undecided {n : Word} {ps : List Modulus} (h : trialFrom n ps = .undecided) :
    ∀ p ∈ ps, n ≠ p.val ∧ reduce n p ≠ 0 := by
  induction ps with
  | nil => simp
  | cons q qs ih =>
    rw [trialFrom] at h
    split_ifs at h with h1 h2
    simp only [List.mem_cons, forall_eq_or_imp]
    exact ⟨⟨h1, h2⟩, ih h⟩

/-- What trial division leaves undecided is in the domain of the Miller-Rabin stage (R141). -/
theorem mrDomain_of_undecided {n : Word} (h2 : ¬ n < 2) (ht : trial n = .undecided) : MrDomain n := by
  have hodd := (trialFrom_undecided ht ⟨2, by decide⟩ (by decide)).2
  have hmod : n.toNat % 2 ≠ 0 := fun h =>
    hodd (BitVec.eq_of_toNat_eq (by rw [reduce_toNat]; exact h))
  have hge : ¬ n.toNat < 2 := h2
  have hbit : n.getLsbD 0 = true := by
    rw [BitVec.getLsbD, Nat.testBit_zero, decide_eq_true_eq]
    omega
  refine ⟨?_, hbit⟩
  change 3 ≤ n.toNat
  omega

/-- `is_prime(n)` (R140): the range rule (R133), trial division (R139), then the Miller-Rabin stage (R137), whose
precondition holds there (R141). -/
def isPrime (n : Word) : Bool :=
  if h2 : n < 2 then false
  else
    match ht : trial n with
    | .prime     => true
    | .composite => false
    | .undecided => mr7 ⟨n, mrDomain_of_undecided h2 ht⟩

/-! ### The commands -/

/-- MRTEST. Idle: the check of issue (R150). Busy: the completion, `RESULT <- zext_64(mr7(M)) ; ACC <- draw_128()`
(R142, R151). -/
def execMrtest (s : State) : Host.Outcome State Fault Refusal :=
  match s.busy, mrOperand s with
  | false, none   => .next (raiseError .mrDomain s)
  | false, some _ => .next (acceptCommand s)
  | true,  some n => .next (deliverDrawn (verdictWord (mr7 n)) s)
  | true,  none   => .refused .operandOutsideDomain

/-- ISPRIME. Idle: accepted, "every 64-bit `n` is accepted" (R143). Busy: the completion,
`RESULT <- zext_64(is_prime(M)) ; ACC <- draw_128()` (R143, R151). -/
def execIsprime (s : State) : Host.Outcome State Fault Refusal :=
  match s.busy with
  | false => .next (acceptCommand s)
  | true  => .next (deliverDrawn (verdictWord (isPrime s.m)) s)

end Sys2Proof.Machine
end

