-- ==== Sys2Proof/Machine/Dispatch.lean ====
section
/-! DEFINITION. One arm for each command: the part of the command that the phase calls for, its issue while the block
is idle (R150), its completion while it is busy (R151). -/

namespace Sys2Proof.Machine

def exec (i : Instr) (s : State) : Host.Outcome State Fault Refusal :=
  match i with
  | .mulmod => Sys2Proof.Machine.execMulmod s
  | .powmod => Sys2Proof.Machine.execPowmod s
  | .mrtest => Sys2Proof.Machine.execMrtest s
  | .isprime => Sys2Proof.Machine.execIsprime s

end Sys2Proof.Machine
end

