-- ==== Sys2Proof/Machine/Port.lean ====
section
/-! DEFINITION. What the three agents do at their turns: the host's accesses (20_memory.md R53, 30_encoding.md R79),
the block's completion step (43 R151), the environment's reset (70 R181). -/

namespace Sys2Proof.Machine

/-! ### The two steps of a command -/

/-- `issue(v)` (R150), for an idle block: CMD takes all 64 bits of the word, legal or not; an illegal word ends at
once with ILLEGAL_CMD; a command makes its own checks (the order of R163). -/
def issue (v : Word) (s : State) : Host.Outcome State Fault Refusal :=
  match decodeWord v with
  | .error _ => .next (raiseError .illegalCmd { s with cmd := v })
  | .ok i    => exec i { s with cmd := v }

/-- `complete` (R151), for a busy block: the command in progress is the one of `CMD[7:0]`. -/
def complete (s : State) : Host.Outcome State Fault Refusal :=
  match decodeOpcode (opcodeField s.cmd) with
  | some i => exec i s
  | none   => .fault .noCommandInProgress

/-- The block's turn: the completion step "is enabled exactly when `BUSY = 1`" (R151); an idle block "changes nothing
by itself" (R175). -/
def blockTurn (s : State) : Host.Outcome State Fault Refusal :=
  if s.busy then complete s else .next s

/-! ### The host's accesses -/

/-- `RegWrite(i, v)` (R53): a write to A, B, M or CMD while busy is dropped and sets OVR; a write to STATUS is never
dropped; a write to a read-only register is ignored. -/
def regWrite (r : Reg) (v : Word) (s : State) : Host.Outcome State Fault Refusal :=
  match r with
  | .a      => .next (if s.busy then flagOverrun s else { s with a := v })
  | .b      => .next (if s.busy then flagOverrun s else { s with b := v })
  | .m      => .next (if s.busy then flagOverrun s else { s with m := v })
  | .cmd    => if s.busy then .next (flagOverrun s) else issue v s
  | .status => .next (writeStatus v s)
  | .result => .next s
  | .accLo  => .next s
  | .accHi  => .next s

/-- One poll of `WAIT` (R79): `RD STATUS`; the line ends when the value read has DONE = 1, and else stays the host's
next (log 8). `rest` is what follows the line. -/
def waitPoll (rest : List HostAction) (s : State) : State :=
  if doneBit (regRead .status s).rdata then { regRead .status s with host := rest } else regRead .status s

/-- The host's turn: its next access in program order (R59); a host with nothing left to do changes nothing (log 16). -/
def hostTurn (s : State) : Host.Outcome State Fault Refusal :=
  match s.host with
  | [] => .next s
  | .rd r :: rest => .next (regRead r { s with host := rest })
  | .wr r v :: rest => regWrite r v { s with host := rest }
  | .wait :: rest => .next (waitPoll rest s)
  | .memRead addr len :: rest =>
    match targetOf addr len with
    | .register r => .next (regRead r { s with host := rest })
    | .outside    => .next { s with host := rest }
    | .bridge     => .refused .platformTransfer
  | .memWrite addr len v :: rest =>
    match targetOf addr len with
    | .register r => regWrite r v { s with host := rest }
    | .outside    => .next { s with host := rest }
    | .bridge     => .refused .platformTransfer

/-! ### Whose turn it is -/

/-- One event of the total order of R59. When no turn is listed the block comes first while it is busy, so that every
accepted command completes (R152), and else the host (log 5). -/
def takeTurn (s : State) : Host.Outcome State Fault Refusal :=
  match s.turns with
  | [] => if s.busy then complete s else hostTurn s
  | .host :: ts => hostTurn { s with turns := ts }
  | .block :: ts => blockTurn { s with turns := ts }
  | .reset d :: ts => .next (resetStep d { s with turns := ts })

/-- The word of a command as the host's very next access, the block idle to take it (R150; log 13). -/
def presentCommand (v : Word) (s : State) : State :=
  { s with busy := false, host := .wr .cmd v :: s.host, turns := .host :: s.turns }

/-! ### The pseudo-instructions of R80, as host accesses -/

/-- `MULMOD a, b, m -> r`. -/
def linesMulmod (a b m : Word) : List HostAction :=
  [.wr .a a, .wr .b b, .wr .m m, .wr .cmd 0x01, .wait, .rd .result]

/-- `POWMOD base, exp, m -> r`. -/
def linesPowmod (base exp m : Word) : List HostAction :=
  [.wr .a base, .wr .b exp, .wr .m m, .wr .cmd 0x02, .wait, .rd .result]

/-- `MRTEST n -> r`. -/
def linesMrtest (n : Word) : List HostAction :=
  [.wr .m n, .wr .cmd 0x03, .wait, .rd .result]

/-- `ISPRIME n -> r`. -/
def linesIsprime (n : Word) : List HostAction :=
  [.wr .m n, .wr .cmd 0x04, .wait, .rd .result]

/-- `RDACC -> hi, lo`. -/
def linesRdacc : List HostAction := [.rd .accHi, .rd .accLo]

/-- `CLROVR`. -/
def linesClrovr : List HostAction := [.wr .status 0x8]

end Sys2Proof.Machine
end

