-- ==== Sys2Proof/Machine/Step.lean ====
section
/-! DEFINITION. One step of the whole: the next event of the total order (20_memory.md R59). -/

namespace Sys2Proof.Machine

/-- The next event: an access of the host, the completion of the command in progress, or a reset (R10, R59). -/
def step (s : State) : Host.Outcome State Fault Refusal := takeTurn s

/-- `s` with the command word of the `nbits` bits `w` as the host's next access and the host's turn next, the block
idle: the very next step issues that word. It stands for the host that drives the block (log 13). -/
def State.withFetchWord (s : State) (nbits w : Nat) : State := presentCommand (tableWord nbits w) s

end Sys2Proof.Machine
end

