-- ==== Sys2Proof/Machine/Fallback.lean ====
section
/-! DEFINITION. The narrow fallback of 40_mulmod.md R96: an overflow-safe double-and-add form of `mulmod`. No command
uses it ("This hardware has the 128-bit accumulator and does not use the fallback"); it stands here so that its
equality with `mulmod` can be stated (log 14). -/

namespace Sys2Proof.Machine

/-- `addmod(x, y, m)` for `x < m`, `y < m` (R96): no intermediate value reaches `2^64`. -/
def addmod (x y m : Word) : Word :=
  if m - y ≤ x then x - (m - y) else x + y

/-- The loop of `mulmod_bin` (R96); `fuel` iterations at most. -/
def mulmodBinLoop (m : Word) : Nat → Word → Word → Word → Word
  | 0, r, _, _ => r
  | fuel + 1, r, a, b =>
    if b = 0 then r
    else mulmodBinLoop m fuel (if b.getLsbD 0 then addmod r a m else r) (addmod a a m) (b >>> 1)

/-- `mulmod_bin(a, b, m)` (R96); `b` has 64 bits, so 64 iterations suffice. -/
def mulmodBin (a b : Word) (m : Modulus) : Word :=
  mulmodBinLoop m.val 64 0 (a % m.val) (b % m.val)

end Sys2Proof.Machine
end

