-- ==== Sys2Proof/Safety.lean ====
section
/-! DEFINITION. The terms that statements use: what every reachable state satisfies (10_state.md R31), whose event is next,
the host that asks nothing of the platform's bridge, and one base's test said of plain numbers. -/

namespace Sys2Proof.Machine

/-- The six invariants of R31, numbered as there. -/
structure Invariants (s : State) : Prop where
  /-- 1. -/
  busyFlags : s.busy = true → s.done = false ∧ s.err = false ∧ s.errCode = 0
  /-- 2. -/
  errCause : s.err = true → s.done = true ∧ (s.errCode = 1 ∨ s.errCode = 2 ∨ s.errCode = 3)
  /-- 3. -/
  noErrNoCode : s.err = false → s.errCode = 0
  /-- 4. -/
  busyLegal : s.busy = true → reservedField s.cmd = 0 ∧
    (opcodeField s.cmd = 1 ∨ opcodeField s.cmd = 2 ∨ opcodeField s.cmd = 3 ∨ opcodeField s.cmd = 4)
  /-- 5. -/
  busyModulus : s.busy = true → opcodeField s.cmd = 1 ∨ opcodeField s.cmd = 2 → s.m ≠ 0
  /-- 6. -/
  busyMrDomain : s.busy = true → opcodeField s.cmd = 3 → 3 ≤ s.m ∧ s.m.getLsbD 0 = true

/-- An access that the spec gives a meaning: any but a transfer that the platform's bridge would have to treat
(R55; log 11). -/
def HostAction.direct : HostAction → Bool
  | .rd _ | .wr _ _ | .wait => true
  | .memRead addr len | .memWrite addr len _ => decide (targetOf addr len ≠ .bridge)

/-- The turn is a reset. -/
def Turn.isReset : Turn → Bool
  | .reset _ => true
  | .host | .block => false

/-- The next event is a reset (R180). -/
def State.resetMoves (s : State) : Bool :=
  match s.turns with
  | .reset _ :: _ => true
  | _ => false

/-- The next event is the completion step of the command in progress (R151). -/
def State.blockCompletes (s : State) : Bool :=
  s.busy && match s.turns with
    | [] | .block :: _ => true
    | _ => false

/-- The next event is an access of the host (R59). -/
def State.hostMoves (s : State) : Bool :=
  match s.turns with
  | [] => !s.busy
  | .host :: _ => true
  | _ => false

/-- The `RegWrite(r, v)` that the next event is, at the port or through the window (R51, R53); none when the next event is
no host write to the block. -/
def State.nextWrite (s : State) : Option (Reg × Word) :=
  if s.hostMoves then
    match s.host with
    | .wr r v :: _ => some (r, v)
    | .memWrite addr len v :: _ =>
      match targetOf addr len with
      | .register r => some (r, v)
      | _ => none
    | _ => none
  else none

/-- The base `a` does not show the odd number `n` composite: the test of 42_primality.md R136 on numbers, with
`n - 1 = d * 2^s` and `d` odd. Written apart from the unit that runs it. -/
def StrongProbablePrime (n a : Nat) : Prop :=
  n ∣ a ∨ ∃ d s, n - 1 = d * 2 ^ s ∧ d % 2 = 1 ∧
    (a ^ d % n = 1 ∨ ∃ r, r < s ∧ a ^ (d * 2 ^ r) % n = n - 1)

end Sys2Proof.Machine
end

