-- ==== Sys2Proof/Certificates/Slice0/Obligations.lean ====
section
/-! DEFINITION. The statements for the provers. -/

open Sys2Proof Sys2Proof.Machine

/-! ### Encoding -/

/-- R77: the pseudocode of `decode`. -/
def Obligations.DecodeIsTheTotalOpcodeMap : Prop :=
  ∀ v : Word,
    (v.extractLsb' 8 56 ≠ 0 → ∃ e, decodeWord v = .error e) ∧
    (v.extractLsb' 8 56 = 0 →
      (v.extractLsb' 0 8 = 0x01 → decodeWord v = .ok .mulmod) ∧
      (v.extractLsb' 0 8 = 0x02 → decodeWord v = .ok .powmod) ∧
      (v.extractLsb' 0 8 = 0x03 → decodeWord v = .ok .mrtest) ∧
      (v.extractLsb' 0 8 = 0x04 → decodeWord v = .ok .isprime) ∧
      (v.extractLsb' 0 8 ∉ [0x01, 0x02, 0x03, 0x04] → ∃ e, decodeWord v = .error e))

/-- 30_encoding.md section 1: the decoder is the table of masks and match values, and its rows never overlap. -/
def Obligations.DecodeMatchesOpcodeTable : Prop :=
  (∀ (v : Word) (i : Instr), decodeWord v = .ok i ↔
    ∃ row ∈ opcodeTable, row.instr = i ∧ v &&& row.mask = row.pattern) ∧
  (∀ v : Word, legalWord v = true ↔ ∃ row ∈ opcodeTable, v &&& row.mask = row.pattern) ∧
  opcodeTable.Pairwise fun p q => ∀ v : Word, ¬ (v &&& p.mask = p.pattern ∧ v &&& q.mask = q.pattern)

/-- Every command, encoded, decodes to itself, and no other word does. -/
def Obligations.DecodeAndEncodeAgree : Prop :=
  ∀ (i : Instr) (v : Word), decodeWord v = .ok i ↔ v = encode i

/-- Words written out from 30_encoding.md R71 and 95_test_vectors.md X1 to X5. -/
def Obligations.WrittenOutWordsDecode : Prop :=
  decodeTableWord 64 0b0000000000000000000000000000000000000000000000000000000000000001 = some .mulmod ∧
  decodeTableWord 64 0b0000000000000000000000000000000000000000000000000000000000000010 = some .powmod ∧
  decodeTableWord 64 0b0000000000000000000000000000000000000000000000000000000000000011 = some .mrtest ∧
  decodeTableWord 64 0b0000000000000000000000000000000000000000000000000000000000000100 = some .isprime ∧
  decodeTableWord 64 0x0000000000000000 = none ∧ decodeTableWord 64 0x0000000000000005 = none ∧
  decodeTableWord 64 0x00000000000000FF = none ∧ decodeTableWord 64 0x0000000000000101 = none ∧
  decodeTableWord 64 0x8000000000000004 = none

/-! ### The functions of the three units -/

/-- R93: the value of `mulmod` and the properties listed with it. -/
def Obligations.MulmodIsTheExactResidue : Prop :=
  ∀ (a b : Word) (m : Modulus),
    mulmod a b m = rem (wmul a b) m ∧
    (mulmod a b m).toNat = a.toNat * b.toNat % m.val.toNat ∧
    mulmod a b m = mulmod b a m ∧
    mulmod a b ⟨1, by decide⟩ = 0 ∧
    mulmod 0 b m = 0 ∧ mulmod a 0 m = 0 ∧
    (mulmod a 1 m).toNat = a.toNat % m.val.toNat ∧
    mulmod a b m = mulmod (a % m.val) (b % m.val) m ∧
    (a.toNat * b.toNat < m.val.toNat → (mulmod a b m).toNat = a.toNat * b.toNat)

/-- 40_mulmod.md section 4: the overflow-safe double-and-add form is bit-exact. The form is general knowledge that
the spec supplies beside the document (log 14); the requirement is the document's. -/
def Obligations.NarrowFallbackIsBitExact : Prop :=
  ∀ (a b : Word) (m : Modulus), mulmodBin a b m = rem (wmul a b) m

/-- R111: the loop computes the modular power, for all operands. -/
def Obligations.PowmodIsTheModularPower : Prop :=
  ∀ (a b : Word) (m : Modulus),
    (powmod a b m).toNat = a.toNat ^ b.toNat % m.val.toNat ∧ (powmod a b m).toNat < m.val.toNat

/-- R112 and the table of R113. -/
def Obligations.PowmodCornerCases : Prop :=
  ∀ (a b : Word) (m : Modulus),
    powmod a b ⟨1, by decide⟩ = 0 ∧
    (1 < m.val.toNat → powmod a 0 m = 1) ∧
    (a.toNat % m.val.toNat = 0 → 1 ≤ b.toNat → powmod a b m = 0) ∧
    (a.toNat % m.val.toNat = 1 → 1 < m.val.toNat → powmod a b m = 1) ∧
    (powmod a 1 m).toNat = a.toNat % m.val.toNat ∧
    (m.val ≤ a → powmod a b m = powmod (a % m.val) b m)

/-- R135: what `decompose` returns, its bounds, and the rule's four examples. -/
def Obligations.DecomposeSplitsOffTheTwos : Prop :=
  (∀ n : MrNumber,
    n.val.toNat - 1 = (decompose n).1.toNat * 2 ^ (decompose n).2 ∧
    (decompose n).1.toNat % 2 = 1 ∧
    1 ≤ (decompose n).2 ∧ (decompose n).2 ≤ 63 ∧
    1 ≤ (decompose n).1.toNat ∧ (decompose n).1.toNat ≤ (n.val.toNat - 1) / 2) ∧
  decompose ⟨561, by decide⟩ = (35, 4) ∧
  decompose ⟨3, by decide⟩ = (1, 1) ∧
  decompose ⟨0xFFFFFFFFFFFFFFC5, by decide⟩ = (4611686018427387889, 2) ∧
  decompose ⟨0x0000000100000001, by decide⟩ = (1, 32)

/-- R136: when one base passes. -/
def Obligations.WitnessPassesAsTheRuleSays : Prop :=
  ∀ (a : Word) (n : MrNumber),
    witnessPass a n (decompose n).1 (decompose n).2 = true ↔
      a.toNat % n.val.toNat = 0 ∨
      a.toNat ^ (decompose n).1.toNat % n.val.toNat = 1 ∨
      a.toNat ^ (decompose n).1.toNat % n.val.toNat = n.val.toNat - 1 ∨
      ∃ r, 1 ≤ r ∧ r ≤ (decompose n).2 - 1 ∧
        a.toNat ^ ((decompose n).1.toNat * 2 ^ r) % n.val.toNat = n.val.toNat - 1

/-- R137: the stage is the conjunction of the seven bases, said of plain numbers. -/
def Obligations.MillerRabinStageIsSevenBases : Prop :=
  ∀ n : MrNumber, mr7 n = true ↔
    ∀ a ∈ [2, 325, 9375, 28178, 450775, 9780504, 1795265022], StrongProbablePrime n.val.toNat a

/-- R139: the three verdicts of trial division, independent of the order of the table. -/
def Obligations.TrialDivisionVerdicts : Prop :=
  (∀ n : Word,
    (trial n = .prime ↔ n.toNat ∈ [2, 3, 5, 7, 11, 13, 17, 19, 23, 29, 31, 37]) ∧
    (trial n = .composite ↔ n.toNat ∉ [2, 3, 5, 7, 11, 13, 17, 19, 23, 29, 31, 37] ∧
      ∃ p ∈ [2, 3, 5, 7, 11, 13, 17, 19, 23, 29, 31, 37], p ∣ n.toNat) ∧
    (trial n = .undecided ↔ ∀ p ∈ [2, 3, 5, 7, 11, 13, 17, 19, 23, 29, 31, 37], ¬ p ∣ n.toNat)) ∧
  trial 0 = .composite ∧ trial 1 = .undecided

/-- R141: what reaches the Miller-Rabin stage inside `is_prime`, and for which numbers a base is skipped there. -/
def Obligations.UndecidedNumbersSuitMillerRabin : Prop :=
  ∀ n : Word, 2 ≤ n → trial n = .undecided →
    n.toNat % 2 = 1 ∧ 41 ≤ n.toNat ∧
    (∀ h : MrDomain n, 1 ≤ (decompose ⟨n, h⟩).2) ∧
    ((∃ a ∈ [2, 325, 9375, 28178, 450775, 9780504, 1795265022], n.toNat ∣ a) ↔
      n.toNat ∈ [73, 193, 14089, 407521, 299210837])

/-- R140 with R133 and R134: when `is_prime` answers true, and the document's two testable properties. -/
def Obligations.IsPrimeRunsThreeStages : Prop :=
  ∀ n : Word,
    (isPrime n = true ↔
      n.toNat ∈ [2, 3, 5, 7, 11, 13, 17, 19, 23, 29, 31, 37] ∨
      (2 ≤ n.toNat ∧ (∀ p ∈ [2, 3, 5, 7, 11, 13, 17, 19, 23, 29, 31, 37], ¬ p ∣ n.toNat) ∧
        ∀ a ∈ [2, 325, 9375, 28178, 450775, 9780504, 1795265022], StrongProbablePrime n.toNat a)) ∧
    (n < 2 → isPrime n = false) ∧
    (2 < n.toNat → n.toNat % 2 = 0 → isPrime n = false)

/-- The elementary half of 42_primality.md section 2's exactness claim: no prime is rejected (general knowledge, as
the spec marks it; proved here of the model, not assumed). -/
def Obligations.NoPrimeIsRejected : Prop :=
  (∀ n : MrNumber, n.val.toNat.Prime → mr7 n = true) ∧
  (∀ n : Word, n.toNat.Prime → isPrime n = true)

/-- Below `41^2` the predicate is exact without any claim about the bases: trial division finds every factor. -/
def Obligations.IsPrimeIsExactBelow1681 : Prop :=
  ∀ n : Word, n < 1681 → (isPrime n = true ↔ n.toNat.Prime)

/-- Exactness reduced to the document's claim, which is a named hypothesis about `n` (42_primality.md section 2): where
the seven bases are right about `n`, ISPRIME is. -/
def Obligations.IsPrimeIsExactWhereTheBasesAre : Prop :=
  ∀ (n : Word) (h : MrDomain n), (mr7 ⟨n, h⟩ = true → n.toNat.Prime) → (isPrime n = true ↔ n.toNat.Prime)

/-! ### The four commands -/

/-- R94: MULMOD, its word, its check at issue and its completion; every field not named keeps its value. -/
def Obligations.MulmodCommand : Prop :=
  encode .mulmod = 0x0000000000000001 ∧
  ∀ s : State,
    (s.busy = false → s.m = 0 →
      exec .mulmod s = .next { s with busy := false, done := true, err := true, errCode := 2 }) ∧
    (s.busy = false → s.m ≠ 0 →
      exec .mulmod s = .next { s with busy := true, done := false, err := false, errCode := 0 }) ∧
    (s.busy = true → s.m ≠ 0 →
      exec .mulmod s = .next { s with
        acc := BitVec.ofNat 128 (s.a.toNat * s.b.toNat)
        result := BitVec.ofNat 64 (s.a.toNat * s.b.toNat % s.m.toNat)
        busy := false, done := true })

/-- R114: POWMOD. ACC takes the next free value, whatever it is (log 3). -/
def Obligations.PowmodCommand : Prop :=
  encode .powmod = 0x0000000000000002 ∧
  ∀ s : State,
    (s.busy = false → s.m = 0 →
      exec .powmod s = .next { s with busy := false, done := true, err := true, errCode := 2 }) ∧
    (s.busy = false → s.m ≠ 0 →
      exec .powmod s = .next { s with busy := true, done := false, err := false, errCode := 0 }) ∧
    (s.busy = true → s.m ≠ 0 →
      exec .powmod s = .next { s with
        result := BitVec.ofNat 64 (s.a.toNat ^ s.b.toNat % s.m.toNat)
        acc := Config.accDraw s.draws, draws := s.draws + 1
        busy := false, done := true })

/-- R142: MRTEST. -/
def Obligations.MrtestCommand : Prop :=
  encode .mrtest = 0x0000000000000003 ∧
  ∀ s : State,
    (s.busy = false → (s.m < 3 ∨ s.m.getLsbD 0 = false) →
      exec .mrtest s = .next { s with busy := false, done := true, err := true, errCode := 3 }) ∧
    (s.busy = false → 3 ≤ s.m → s.m.getLsbD 0 = true →
      exec .mrtest s = .next { s with busy := true, done := false, err := false, errCode := 0 }) ∧
    (s.busy = true → ∀ h : MrDomain s.m,
      exec .mrtest s = .next { s with
        result := if mr7 ⟨s.m, h⟩ then 1 else 0
        acc := Config.accDraw s.draws, draws := s.draws + 1
        busy := false, done := true })

/-- R143: ISPRIME. -/
def Obligations.IsprimeCommand : Prop :=
  encode .isprime = 0x0000000000000004 ∧
  ∀ s : State,
    (s.busy = false →
      exec .isprime s = .next { s with busy := true, done := false, err := false, errCode := 0 }) ∧
    (s.busy = true →
      exec .isprime s = .next { s with
        result := if isPrime s.m then 1 else 0
        acc := Config.accDraw s.draws, draws := s.draws + 1
        busy := false, done := true })

/-- The model's own stops, in states that no run reaches: a completion outside the command's domain (log 9) or with no
command in CMD (log 10). -/
def Obligations.CompletionOutsideTheDomainStops : Prop :=
  ∀ s : State, s.busy = true →
    (s.m = 0 → exec .mulmod s = .refused .operandOutsideDomain ∧ exec .powmod s = .refused .operandOutsideDomain) ∧
    (¬ MrDomain s.m → exec .mrtest s = .refused .operandOutsideDomain) ∧
    (s.blockCompletes = true → s.cmd.extractLsb' 0 8 ∉ [0x01, 0x02, 0x03, 0x04] →
      step s = .fault .noCommandInProgress)

/-- A command's step depends on no register that R72 does not list for it: MRTEST and ISPRIME read M alone, so the
verdict is the same at every execution (R145). -/
def Obligations.PrimalityCommandsReadOnlyM : Prop :=
  ∀ (i : Instr) (s t s' t' : State), i = .mrtest ∨ i = .isprime → s.busy = t.busy → s.m = t.m →
    exec i s = .next s' → exec i t = .next t' →
    s'.busy = t'.busy ∧ s'.done = t'.done ∧
    (s.busy = true → s'.result = t'.result) ∧
    (s.busy = false → s'.err = t'.err ∧ s'.errCode = t'.errCode)

/-! ### A step -/

/-- The host's CMD write runs the command of the word: `exec` at the state in which CMD holds the word and the access and
the turn are used up. -/
def Obligations.StepIssuesTheDecodedCommand : Prop :=
  ∀ (s : State) (v : Word) (rest : List HostAction) (i : Instr),
    s.hostMoves = true → s.host = .wr .cmd v :: rest → s.busy = false → decodeWord v = .ok i →
    step s = exec i { s with cmd := v, host := rest, turns := s.turns.tail }

/-- The block's step runs the command in progress: `exec` at the state in which the turn is used up. -/
def Obligations.StepCompletesTheCommandInProgress : Prop :=
  ∀ (s : State) (i : Instr),
    s.blockCompletes = true → decodeOpcode (s.cmd.extractLsb' 0 8) = some i →
    step s = exec i { s with turns := s.turns.tail }

/-- A word placed by `withFetchWord` is issued by the very next step (log 13). -/
def Obligations.PresentedWordIsIssuedNext : Prop :=
  ∀ (s : State) (i : Instr),
    step (s.withFetchWord 64 (encode i).toNat) = exec i { s with busy := false, cmd := encode i }

/-- R150 with R163: everything a CMD write does, the first condition that applies, in the rule's order. -/
def Obligations.CmdWriteChecksInOrder : Prop :=
  ∀ (s : State) (v : Word) (rest : List HostAction),
    s.hostMoves = true → s.host = .wr .cmd v :: rest →
    (s.busy = true →
      step s = .next { s with ovr := true, host := rest, turns := s.turns.tail }) ∧
    (s.busy = false → legalWord v = false →
      step s = .next { s with cmd := v, busy := false, done := true, err := true, errCode := 1,
                              host := rest, turns := s.turns.tail }) ∧
    (s.busy = false → v = 1 ∨ v = 2 → s.m = 0 →
      step s = .next { s with cmd := v, busy := false, done := true, err := true, errCode := 2,
                              host := rest, turns := s.turns.tail }) ∧
    (s.busy = false → v = 3 → (s.m < 3 ∨ s.m.getLsbD 0 = false) →
      step s = .next { s with cmd := v, busy := false, done := true, err := true, errCode := 3,
                              host := rest, turns := s.turns.tail }) ∧
    (s.busy = false →
      ((v = 1 ∨ v = 2) ∧ s.m ≠ 0) ∨ (v = 3 ∧ 3 ≤ s.m ∧ s.m.getLsbD 0 = true) ∨ v = 4 →
      step s = .next { s with cmd := v, busy := true, done := false, err := false, errCode := 0,
                              host := rest, turns := s.turns.tail })

/-- R52: a host read returns the register and changes none. -/
def Obligations.HostReadReturnsTheRegister : Prop :=
  ∀ (s : State) (r : Reg) (rest : List HostAction),
    s.hostMoves = true → s.host = .rd r :: rest →
    ∃ x k, step s = .next { s with rdata := x, draws := k, host := rest, turns := s.turns.tail } ∧
      (r = .a → x = s.a) ∧ (r = .b → x = s.b) ∧ (r = .m → x = s.m) ∧ (r = .cmd → x = s.cmd) ∧
      (r = .status → x = (s.errCode ++ BitVec.ofBool s.ovr ++ BitVec.ofBool s.err ++ BitVec.ofBool s.done ++
        BitVec.ofBool s.busy).setWidth 64) ∧
      (s.busy = false → r = .result → x = s.result) ∧
      (s.busy = false → r = .accLo → x = s.acc.extractLsb' 0 64) ∧
      (s.busy = false → r = .accHi → x = s.acc.extractLsb' 64 64)

/-- R53: a host write, register by register, busy or idle. -/
def Obligations.HostWriteFollowsTheCases : Prop :=
  ∀ (s : State) (r : Reg) (v : Word) (rest : List HostAction),
    s.hostMoves = true → s.host = .wr r v :: rest →
    (s.busy = true → r = .a ∨ r = .b ∨ r = .m ∨ r = .cmd →
      step s = .next { s with ovr := true, host := rest, turns := s.turns.tail }) ∧
    (s.busy = false → r = .a → step s = .next { s with a := v, host := rest, turns := s.turns.tail }) ∧
    (s.busy = false → r = .b → step s = .next { s with b := v, host := rest, turns := s.turns.tail }) ∧
    (s.busy = false → r = .m → step s = .next { s with m := v, host := rest, turns := s.turns.tail }) ∧
    (s.busy = false → r = .cmd → step s = issue v { s with host := rest, turns := s.turns.tail }) ∧
    (r = .status → step s = .next { s with ovr := s.ovr && !v.getLsbD 3, host := rest, turns := s.turns.tail }) ∧
    (r = .result ∨ r = .accLo ∨ r = .accHi → step s = .next { s with host := rest, turns := s.turns.tail })

/-- 10_state.md section 2: the fields of the STATUS word, bit by bit; bits 63:8 read as zero. -/
def Obligations.StatusWordLayout : Prop :=
  ∀ s : State,
    (statusWord s).getLsbD 0 = s.busy ∧ (statusWord s).getLsbD 1 = s.done ∧
    (statusWord s).getLsbD 2 = s.err ∧ (statusWord s).getLsbD 3 = s.ovr ∧
    (statusWord s).extractLsb' 4 4 = s.errCode ∧ (statusWord s).extractLsb' 8 56 = 0

/-- R51: the mapped view. Register `i` answers 8-byte transfers at `BASE + 8*i`. -/
def Obligations.WindowMapsTheRegisters : Prop :=
  Config.base % 64 = 0 ∧
  ∀ (s : State) (r : Reg) (v : Word) (rest : List HostAction), s.hostMoves = true →
    step { s with host := .memRead (Config.base + 8 * r.index) 8 :: rest } = step { s with host := .rd r :: rest } ∧
    step { s with host := .memWrite (Config.base + 8 * r.index) 8 v :: rest } = step { s with host := .wr r v :: rest }

/-- Other transfers (20_memory.md sections 1 and 3; log 11): outside the window nothing reaches the block; inside it
only whole registers do, and what the platform does with the rest is refused by name. -/
def Obligations.OtherTransfersNeverReachTheBlock : Prop :=
  ∀ (s : State) (addr len : Nat) (v : Word) (act : HostAction) (rest : List HostAction), s.hostMoves = true →
    s.host = act :: rest → act = .memRead addr len ∨ act = .memWrite addr len v →
    (addr + len ≤ Config.base ∨ Config.base + 64 ≤ addr →
      step s = .next { s with host := rest, turns := s.turns.tail }) ∧
    (addr < Config.base + 64 → Config.base < addr + len → 0 < len →
      ¬ (len = 8 ∧ Config.base ≤ addr ∧ (addr - Config.base) % 8 = 0) →
      step s = .refused .platformTransfer)

/-- `WAIT` (30_encoding.md section 5; log 8): one poll reads STATUS, and the line ends exactly when DONE is 1. -/
def Obligations.WaitPollsUntilDone : Prop :=
  ∀ (s : State) (rest : List HostAction), s.hostMoves = true → s.host = .wait :: rest →
    step s = .next { s with
      rdata := statusWord s
      host := if s.done then rest else .wait :: rest
      turns := s.turns.tail }

/-! ### Reset -/

/-- 70_reset_and_hazards.md section 1: the reset step, in any state, with any six data values. That `host`, `rdata`,
`draws` and the remaining `turns` survive it is the model's deduction (log 2, DEDUCED), not the text of R181. -/
def Obligations.ResetStepFromAnyState : Prop :=
  ∀ (s : State) (d : ResetData) (ts : List Turn), s.turns = .reset d :: ts →
    ∃ t, step s = .next t ∧
      t.busy = false ∧ t.done = false ∧ t.err = false ∧ t.ovr = false ∧ t.errCode = 0 ∧ t.cmd = 0 ∧
      t.a = d.a ∧ t.b = d.b ∧ t.m = d.m ∧ t.result = d.result ∧ t.acc = d.accHi ++ d.accLo ∧
      t.host = s.host ∧ t.turns = ts ∧ t.rdata = s.rdata ∧ t.draws = s.draws ∧
      storedValue .status t = 0 ∧ storedValue .cmd t = 0

/-- The state after reset: what 10_state.md section 7 gives (STATUS and CMD), and the model's own zeros in the data
registers (log 1); it is what the reset step leaves for that data. -/
def Obligations.ResetStateValues : Prop :=
  statusWord State.reset = 0 ∧ State.reset.cmd = 0 ∧ State.reset.busy = false ∧
  State.reset.a = 0 ∧ State.reset.b = 0 ∧ State.reset.m = 0 ∧ State.reset.result = 0 ∧ State.reset.acc = 0 ∧
  step { State.reset with turns := [.reset ⟨0, 0, 0, 0, 0, 0⟩] } = .next State.reset

/-! ### Rules of the whole machine -/

/-- The state after reset satisfies the invariants of 10_state.md section 8. -/
def Obligations.ResetMeetsTheInvariants : Prop := Invariants State.reset

/-- R31: every step keeps the six invariants, from every state that satisfies them. -/
def Obligations.StepKeepsTheInvariants : Prop :=
  ∀ s t : State, Invariants s → step s = .next t → Invariants t

/-- Under the invariants no step faults, and none is refused but a transfer for the platform's bridge (log 11): "once
accepted, a command always completes normally" (60_exceptions.md section 1). -/
def Obligations.StepNeverStopsUnderTheInvariants : Prop :=
  ∀ s : State, Invariants s → (∀ x ∈ s.host, x.direct = true) → ∃ t, step s = .next t

/-- R62: nothing but reset alters a command in progress, whatever the host does. -/
def Obligations.CommandInProgressIsUndisturbed : Prop :=
  ∀ s t : State, s.busy = true → s.resetMoves = false → step s = .next t →
    t.a = s.a ∧ t.b = s.b ∧ t.m = s.m ∧ t.cmd = s.cmd ∧ t.err = s.err ∧ t.errCode = s.errCode ∧
    (t.busy = true → t.result = s.result ∧ t.acc = s.acc ∧ t.done = s.done)

/-- 70_reset_and_hazards.md section 1: BUSY goes from 1 to 0 by completion or by reset only. -/
def Obligations.BusyEndsByCompletionOrReset : Prop :=
  ∀ s t : State, s.busy = true → step s = .next t → t.busy = false →
    (∃ d ts, s.turns = .reset d :: ts) ∨
    (s.blockCompletes = true ∧ t.done = true ∧ ∃ i, decodeOpcode (s.cmd.extractLsb' 0 8) = some i ∧
      exec i { s with turns := s.turns.tail } = .next t)

/-- 10_state.md section 1: the block never writes A, B, M or CMD; the host does, while the block is idle. -/
def Obligations.OnlyIdleHostWritesChangeOperands : Prop :=
  ∀ s t : State, s.resetMoves = false → step s = .next t →
    (t.a ≠ s.a → s.busy = false ∧ s.nextWrite = some (.a, t.a)) ∧
    (t.b ≠ s.b → s.busy = false ∧ s.nextWrite = some (.b, t.b)) ∧
    (t.m ≠ s.m → s.busy = false ∧ s.nextWrite = some (.m, t.m)) ∧
    (t.cmd ≠ s.cmd → s.busy = false ∧ s.nextWrite = some (.cmd, t.cmd))

/-- 10_state.md section 4: RESULT and ACC change at the completion of a command or at reset, and at no other step. -/
def Obligations.OnlyCompletionChangesResults : Prop :=
  ∀ s t : State, s.resetMoves = false → step s = .next t → t.result ≠ s.result ∨ t.acc ≠ s.acc →
    s.blockCompletes = true ∧ t.busy = false ∧ t.done = true

/-- R24: what sets and what clears each STATUS flag. Acceptance and error completion are the two outcomes of an idle
CMD write; `blockCompletes` is the completion step. -/
def Obligations.FlagsChangeOnlyAsTheTableSays : Prop :=
  ∀ s t : State, step s = .next t →
    (s.resetMoves = true → t.busy = false ∧ t.done = false ∧ t.err = false ∧ t.ovr = false) ∧
    (s.blockCompletes = true → t.busy = false ∧ t.done = true ∧ t.err = s.err ∧ t.errCode = s.errCode ∧ t.ovr = s.ovr ∧
      (Invariants s → t.err = false ∧ t.errCode = 0)) ∧
    (s.resetMoves = false →
      (s.busy = false → t.busy = true → ∃ v, s.nextWrite = some (.cmd, v) ∧ legalWord v = true) ∧
      (s.busy = true → t.busy = false → s.blockCompletes = true) ∧
      (s.done = false → t.done = true →
        s.blockCompletes = true ∨ (∃ v, s.nextWrite = some (.cmd, v) ∧ s.busy = false ∧ t.err = true)) ∧
      (s.done = true → t.done = false → ∃ v, s.nextWrite = some (.cmd, v) ∧ s.busy = false ∧ t.busy = true) ∧
      (s.err = false → t.err = true →
        ∃ v, s.nextWrite = some (.cmd, v) ∧ s.busy = false ∧ t.busy = false ∧ t.done = true ∧
          (t.errCode = 1 ∨ t.errCode = 2 ∨ t.errCode = 3)) ∧
      (s.err = true → t.err = false →
        ∃ v, s.nextWrite = some (.cmd, v) ∧ s.busy = false ∧ t.busy = true ∧ t.errCode = 0) ∧
      (s.ovr = false → t.ovr = true →
        s.busy = true ∧ ∃ r v, s.nextWrite = some (r, v) ∧ (r = .a ∨ r = .b ∨ r = .m ∨ r = .cmd)) ∧
      (s.ovr = true → t.ovr = false → ∃ v, s.nextWrite = some (.status, v) ∧ v.getLsbD 3 = true))

/-- R175: an idle block to which the host writes nothing holds its state, for ever. -/
def Obligations.IdleBlockHoldsItsState : Prop :=
  ∀ s t : State, s.busy = false → s.resetMoves = false → s.nextWrite = none → step s = .next t →
    ∃ x l, t = { s with rdata := x, host := l, turns := s.turns.tail }

/-- 43_sequencing_and_system.md section 1: from every state that satisfies the invariants with a command in progress,
whatever the host does and whatever order of turns without a reset comes, the command completes; its operands are those it
was issued with and RESULT is its function of them. The bound, one step more than there are turns listed, and progress as
a bounded run rest on the model's order of turns (log 5, DESIGN CHOICE: the list is finite, and with none listed the block
comes first while busy); R152 itself is a weak-fairness assumption. The premise on `host` keeps out what log 11 refuses. -/
def Obligations.AcceptedCommandCompletes : Prop :=
  ∀ s : State, Invariants s → s.busy = true → (∀ x ∈ s.turns, x.isReset = false) → (∀ x ∈ s.host, x.direct = true) →
    ∃ (k : Nat) (t : State), k ≤ s.turns.length + 1 ∧ Host.Core.run Sys2Proof.core k s = .next t ∧
      t.busy = false ∧ t.done = true ∧ t.err = false ∧ t.errCode = 0 ∧
      t.a = s.a ∧ t.b = s.b ∧ t.m = s.m ∧ t.cmd = s.cmd ∧
      (s.cmd = encode .mulmod →
        t.acc.toNat = s.a.toNat * s.b.toNat ∧ t.result.toNat = s.a.toNat * s.b.toNat % s.m.toNat) ∧
      (s.cmd = encode .powmod → t.result.toNat = s.a.toNat ^ s.b.toNat % s.m.toNat) ∧
      (s.cmd = encode .mrtest → ∀ h : MrDomain s.m, t.result = if mr7 ⟨s.m, h⟩ then 1 else 0) ∧
      (s.cmd = encode .isprime → t.result = if isPrime s.m then 1 else 0)
end

