-- ==== Sys2Proof/Laws/State.lean ====
section
/-! SUPPORT. One lemma for each field of State and each named update of it: what the update leaves there. -/

namespace Sys2Proof.Machine

/-! ### `acceptCommand` -/

section
variable (s : State)

@[simp] theorem acceptCommand_a : (acceptCommand s).a = s.a := rfl
@[simp] theorem acceptCommand_b : (acceptCommand s).b = s.b := rfl
@[simp] theorem acceptCommand_m : (acceptCommand s).m = s.m := rfl
@[simp] theorem acceptCommand_cmd : (acceptCommand s).cmd = s.cmd := rfl
@[simp] theorem acceptCommand_result : (acceptCommand s).result = s.result := rfl
@[simp] theorem acceptCommand_acc : (acceptCommand s).acc = s.acc := rfl
@[simp] theorem acceptCommand_busy : (acceptCommand s).busy = true := rfl
@[simp] theorem acceptCommand_done : (acceptCommand s).done = false := rfl
@[simp] theorem acceptCommand_err : (acceptCommand s).err = false := rfl
@[simp] theorem acceptCommand_ovr : (acceptCommand s).ovr = s.ovr := rfl
@[simp] theorem acceptCommand_errCode : (acceptCommand s).errCode = 0 := rfl
@[simp] theorem acceptCommand_rdata : (acceptCommand s).rdata = s.rdata := rfl
@[simp] theorem acceptCommand_draws : (acceptCommand s).draws = s.draws := rfl
@[simp] theorem acceptCommand_host : (acceptCommand s).host = s.host := rfl
@[simp] theorem acceptCommand_turns : (acceptCommand s).turns = s.turns := rfl

end

/-! ### `raiseError` -/

section
variable (c : ErrCause) (s : State)

@[simp] theorem raiseError_a : (raiseError c s).a = s.a := rfl
@[simp] theorem raiseError_b : (raiseError c s).b = s.b := rfl
@[simp] theorem raiseError_m : (raiseError c s).m = s.m := rfl
@[simp] theorem raiseError_cmd : (raiseError c s).cmd = s.cmd := rfl
@[simp] theorem raiseError_result : (raiseError c s).result = s.result := rfl
@[simp] theorem raiseError_acc : (raiseError c s).acc = s.acc := rfl
@[simp] theorem raiseError_busy : (raiseError c s).busy = false := rfl
@[simp] theorem raiseError_done : (raiseError c s).done = true := rfl
@[simp] theorem raiseError_err : (raiseError c s).err = true := rfl
@[simp] theorem raiseError_ovr : (raiseError c s).ovr = s.ovr := rfl
@[simp] theorem raiseError_errCode : (raiseError c s).errCode = c.code := rfl
@[simp] theorem raiseError_rdata : (raiseError c s).rdata = s.rdata := rfl
@[simp] theorem raiseError_draws : (raiseError c s).draws = s.draws := rfl
@[simp] theorem raiseError_host : (raiseError c s).host = s.host := rfl
@[simp] theorem raiseError_turns : (raiseError c s).turns = s.turns := rfl

end

/-! ### `deliver` -/

section
variable (x : Word) (y : Acc) (s : State)

@[simp] theorem deliver_a : (deliver x y s).a = s.a := rfl
@[simp] theorem deliver_b : (deliver x y s).b = s.b := rfl
@[simp] theorem deliver_m : (deliver x y s).m = s.m := rfl
@[simp] theorem deliver_cmd : (deliver x y s).cmd = s.cmd := rfl
@[simp] theorem deliver_result : (deliver x y s).result = x := rfl
@[simp] theorem deliver_acc : (deliver x y s).acc = y := rfl
@[simp] theorem deliver_busy : (deliver x y s).busy = false := rfl
@[simp] theorem deliver_done : (deliver x y s).done = true := rfl
@[simp] theorem deliver_err : (deliver x y s).err = s.err := rfl
@[simp] theorem deliver_ovr : (deliver x y s).ovr = s.ovr := rfl
@[simp] theorem deliver_errCode : (deliver x y s).errCode = s.errCode := rfl
@[simp] theorem deliver_rdata : (deliver x y s).rdata = s.rdata := rfl
@[simp] theorem deliver_draws : (deliver x y s).draws = s.draws := rfl
@[simp] theorem deliver_host : (deliver x y s).host = s.host := rfl
@[simp] theorem deliver_turns : (deliver x y s).turns = s.turns := rfl

end

/-! ### `deliverDrawn` -/

section
variable (x : Word) (s : State)

@[simp] theorem deliverDrawn_a : (deliverDrawn x s).a = s.a := rfl
@[simp] theorem deliverDrawn_b : (deliverDrawn x s).b = s.b := rfl
@[simp] theorem deliverDrawn_m : (deliverDrawn x s).m = s.m := rfl
@[simp] theorem deliverDrawn_cmd : (deliverDrawn x s).cmd = s.cmd := rfl
@[simp] theorem deliverDrawn_result : (deliverDrawn x s).result = x := rfl
@[simp] theorem deliverDrawn_acc : (deliverDrawn x s).acc = Config.accDraw s.draws := rfl
@[simp] theorem deliverDrawn_busy : (deliverDrawn x s).busy = false := rfl
@[simp] theorem deliverDrawn_done : (deliverDrawn x s).done = true := rfl
@[simp] theorem deliverDrawn_err : (deliverDrawn x s).err = s.err := rfl
@[simp] theorem deliverDrawn_ovr : (deliverDrawn x s).ovr = s.ovr := rfl
@[simp] theorem deliverDrawn_errCode : (deliverDrawn x s).errCode = s.errCode := rfl
@[simp] theorem deliverDrawn_rdata : (deliverDrawn x s).rdata = s.rdata := rfl
@[simp] theorem deliverDrawn_draws : (deliverDrawn x s).draws = s.draws + 1 := rfl
@[simp] theorem deliverDrawn_host : (deliverDrawn x s).host = s.host := rfl
@[simp] theorem deliverDrawn_turns : (deliverDrawn x s).turns = s.turns := rfl

end

/-! ### `flagOverrun` -/

section
variable (s : State)

@[simp] theorem flagOverrun_a : (flagOverrun s).a = s.a := rfl
@[simp] theorem flagOverrun_b : (flagOverrun s).b = s.b := rfl
@[simp] theorem flagOverrun_m : (flagOverrun s).m = s.m := rfl
@[simp] theorem flagOverrun_cmd : (flagOverrun s).cmd = s.cmd := rfl
@[simp] theorem flagOverrun_result : (flagOverrun s).result = s.result := rfl
@[simp] theorem flagOverrun_acc : (flagOverrun s).acc = s.acc := rfl
@[simp] theorem flagOverrun_busy : (flagOverrun s).busy = s.busy := rfl
@[simp] theorem flagOverrun_done : (flagOverrun s).done = s.done := rfl
@[simp] theorem flagOverrun_err : (flagOverrun s).err = s.err := rfl
@[simp] theorem flagOverrun_ovr : (flagOverrun s).ovr = true := rfl
@[simp] theorem flagOverrun_errCode : (flagOverrun s).errCode = s.errCode := rfl
@[simp] theorem flagOverrun_rdata : (flagOverrun s).rdata = s.rdata := rfl
@[simp] theorem flagOverrun_draws : (flagOverrun s).draws = s.draws := rfl
@[simp] theorem flagOverrun_host : (flagOverrun s).host = s.host := rfl
@[simp] theorem flagOverrun_turns : (flagOverrun s).turns = s.turns := rfl

end

/-! ### `resetStep` -/

section
variable (d : ResetData) (s : State)

@[simp] theorem resetStep_a : (resetStep d s).a = d.a := rfl
@[simp] theorem resetStep_b : (resetStep d s).b = d.b := rfl
@[simp] theorem resetStep_m : (resetStep d s).m = d.m := rfl
@[simp] theorem resetStep_cmd : (resetStep d s).cmd = 0 := rfl
@[simp] theorem resetStep_result : (resetStep d s).result = d.result := rfl
@[simp] theorem resetStep_acc : (resetStep d s).acc = d.accHi ++ d.accLo := rfl
@[simp] theorem resetStep_busy : (resetStep d s).busy = false := rfl
@[simp] theorem resetStep_done : (resetStep d s).done = false := rfl
@[simp] theorem resetStep_err : (resetStep d s).err = false := rfl
@[simp] theorem resetStep_ovr : (resetStep d s).ovr = false := rfl
@[simp] theorem resetStep_errCode : (resetStep d s).errCode = 0 := rfl
@[simp] theorem resetStep_rdata : (resetStep d s).rdata = s.rdata := rfl
@[simp] theorem resetStep_draws : (resetStep d s).draws = s.draws := rfl
@[simp] theorem resetStep_host : (resetStep d s).host = s.host := rfl
@[simp] theorem resetStep_turns : (resetStep d s).turns = s.turns := rfl

end

/-! ### `presentCommand` -/

section
variable (v : Word) (s : State)

@[simp] theorem presentCommand_a : (presentCommand v s).a = s.a := rfl
@[simp] theorem presentCommand_b : (presentCommand v s).b = s.b := rfl
@[simp] theorem presentCommand_m : (presentCommand v s).m = s.m := rfl
@[simp] theorem presentCommand_cmd : (presentCommand v s).cmd = s.cmd := rfl
@[simp] theorem presentCommand_result : (presentCommand v s).result = s.result := rfl
@[simp] theorem presentCommand_acc : (presentCommand v s).acc = s.acc := rfl
@[simp] theorem presentCommand_busy : (presentCommand v s).busy = false := rfl
@[simp] theorem presentCommand_done : (presentCommand v s).done = s.done := rfl
@[simp] theorem presentCommand_err : (presentCommand v s).err = s.err := rfl
@[simp] theorem presentCommand_ovr : (presentCommand v s).ovr = s.ovr := rfl
@[simp] theorem presentCommand_errCode : (presentCommand v s).errCode = s.errCode := rfl
@[simp] theorem presentCommand_rdata : (presentCommand v s).rdata = s.rdata := rfl
@[simp] theorem presentCommand_draws : (presentCommand v s).draws = s.draws := rfl
@[simp] theorem presentCommand_host : (presentCommand v s).host = .wr .cmd v :: s.host := rfl
@[simp] theorem presentCommand_turns : (presentCommand v s).turns = .host :: s.turns := rfl

end

/-! ### `writeStatus`: an update under a condition -/

section
variable (v : Word) (s : State)

@[simp] theorem writeStatus_a : (writeStatus v s).a = s.a := by
  unfold writeStatus; split <;> rfl
@[simp] theorem writeStatus_b : (writeStatus v s).b = s.b := by
  unfold writeStatus; split <;> rfl
@[simp] theorem writeStatus_m : (writeStatus v s).m = s.m := by
  unfold writeStatus; split <;> rfl
@[simp] theorem writeStatus_cmd : (writeStatus v s).cmd = s.cmd := by
  unfold writeStatus; split <;> rfl
@[simp] theorem writeStatus_result : (writeStatus v s).result = s.result := by
  unfold writeStatus; split <;> rfl
@[simp] theorem writeStatus_acc : (writeStatus v s).acc = s.acc := by
  unfold writeStatus; split <;> rfl
@[simp] theorem writeStatus_busy : (writeStatus v s).busy = s.busy := by
  unfold writeStatus; split <;> rfl
@[simp] theorem writeStatus_done : (writeStatus v s).done = s.done := by
  unfold writeStatus; split <;> rfl
@[simp] theorem writeStatus_err : (writeStatus v s).err = s.err := by
  unfold writeStatus; split <;> rfl
@[simp] theorem writeStatus_ovr : (writeStatus v s).ovr = (if clearsOvr v then false else s.ovr) := by
  unfold writeStatus; split <;> rfl
@[simp] theorem writeStatus_errCode : (writeStatus v s).errCode = s.errCode := by
  unfold writeStatus; split <;> rfl
@[simp] theorem writeStatus_rdata : (writeStatus v s).rdata = s.rdata := by
  unfold writeStatus; split <;> rfl
@[simp] theorem writeStatus_draws : (writeStatus v s).draws = s.draws := by
  unfold writeStatus; split <;> rfl
@[simp] theorem writeStatus_host : (writeStatus v s).host = s.host := by
  unfold writeStatus; split <;> rfl
@[simp] theorem writeStatus_turns : (writeStatus v s).turns = s.turns := by
  unfold writeStatus; split <;> rfl

end

/-! ### `regRead`: the registers, the host and the turns stay -/

section
variable (r : Reg) (s : State)

@[simp] theorem regRead_a : (regRead r s).a = s.a := by
  unfold regRead; split <;> rfl
@[simp] theorem regRead_b : (regRead r s).b = s.b := by
  unfold regRead; split <;> rfl
@[simp] theorem regRead_m : (regRead r s).m = s.m := by
  unfold regRead; split <;> rfl
@[simp] theorem regRead_cmd : (regRead r s).cmd = s.cmd := by
  unfold regRead; split <;> rfl
@[simp] theorem regRead_result : (regRead r s).result = s.result := by
  unfold regRead; split <;> rfl
@[simp] theorem regRead_acc : (regRead r s).acc = s.acc := by
  unfold regRead; split <;> rfl
@[simp] theorem regRead_busy : (regRead r s).busy = s.busy := by
  unfold regRead; split <;> rfl
@[simp] theorem regRead_done : (regRead r s).done = s.done := by
  unfold regRead; split <;> rfl
@[simp] theorem regRead_err : (regRead r s).err = s.err := by
  unfold regRead; split <;> rfl
@[simp] theorem regRead_ovr : (regRead r s).ovr = s.ovr := by
  unfold regRead; split <;> rfl
@[simp] theorem regRead_errCode : (regRead r s).errCode = s.errCode := by
  unfold regRead; split <;> rfl
@[simp] theorem regRead_host : (regRead r s).host = s.host := by
  unfold regRead; split <;> rfl
@[simp] theorem regRead_turns : (regRead r s).turns = s.turns := by
  unfold regRead; split <;> rfl

@[simp] theorem regRead_rdata : (regRead r s).rdata =
    if s.busy && r.drawnWhileBusy then Config.busyReadDraw s.draws else storedValue r s := by
  unfold regRead; split <;> rfl
@[simp] theorem regRead_draws : (regRead r s).draws =
    if s.busy && r.drawnWhileBusy then s.draws + 1 else s.draws := by
  unfold regRead; split <;> rfl

end

/-! ### `waitPoll`: the registers and the turns stay -/

section
variable (rest : List HostAction) (s : State)

@[simp] theorem waitPoll_a : (waitPoll rest s).a = s.a := by
  unfold waitPoll; split <;> simp
@[simp] theorem waitPoll_b : (waitPoll rest s).b = s.b := by
  unfold waitPoll; split <;> simp
@[simp] theorem waitPoll_m : (waitPoll rest s).m = s.m := by
  unfold waitPoll; split <;> simp
@[simp] theorem waitPoll_cmd : (waitPoll rest s).cmd = s.cmd := by
  unfold waitPoll; split <;> simp
@[simp] theorem waitPoll_result : (waitPoll rest s).result = s.result := by
  unfold waitPoll; split <;> simp
@[simp] theorem waitPoll_acc : (waitPoll rest s).acc = s.acc := by
  unfold waitPoll; split <;> simp
@[simp] theorem waitPoll_busy : (waitPoll rest s).busy = s.busy := by
  unfold waitPoll; split <;> simp
@[simp] theorem waitPoll_done : (waitPoll rest s).done = s.done := by
  unfold waitPoll; split <;> simp
@[simp] theorem waitPoll_err : (waitPoll rest s).err = s.err := by
  unfold waitPoll; split <;> simp
@[simp] theorem waitPoll_ovr : (waitPoll rest s).ovr = s.ovr := by
  unfold waitPoll; split <;> simp
@[simp] theorem waitPoll_errCode : (waitPoll rest s).errCode = s.errCode := by
  unfold waitPoll; split <;> simp
@[simp] theorem waitPoll_rdata : (waitPoll rest s).rdata = statusWord s := by
  unfold waitPoll; split <;> simp [Reg.drawnWhileBusy, storedValue]
@[simp] theorem waitPoll_draws : (waitPoll rest s).draws = s.draws := by
  unfold waitPoll; split <;> simp [Reg.drawnWhileBusy]
@[simp] theorem waitPoll_host : (waitPoll rest s).host = if doneBit (statusWord s) then rest else s.host := by
  unfold waitPoll; simp only [regRead_rdata, Reg.drawnWhileBusy, Bool.and_false, Bool.false_eq_true, if_false, storedValue]; split <;> simp
@[simp] theorem waitPoll_turns : (waitPoll rest s).turns = s.turns := by
  unfold waitPoll; split <;> simp

end

end Sys2Proof.Machine
end

