-- ==== Sys2Proof/Laws/Ops.lean ====
section
/-! SUPPORT. One lemma for each shared operation: everything it can do. -/

namespace Sys2Proof.Machine

/-! ### Reading and the register space -/

/-- A read changes no register (R52): only what the host received and the count of draws. -/
theorem regRead_spec (r : Reg) (s : State) :
    ∃ x k, regRead r s = { s with rdata := x, draws := k } ∧ s.draws ≤ k ∧
      (s.busy = false ∨ r.drawnWhileBusy = false → x = storedValue r s ∧ k = s.draws) := by
  unfold regRead
  split
  case isTrue h =>
    refine ⟨_, _, rfl, Nat.le_succ _, fun h' => ?_⟩
    rw [Bool.and_eq_true] at h
    rcases h' with h' | h' <;> simp [h'] at h
  case isFalse h => exact ⟨_, _, rfl, le_rfl, fun _ => ⟨rfl, rfl⟩⟩

/-- A poll is a read of STATUS, and the line ends exactly when DONE is 1 (R79). -/
theorem waitPoll_spec (rest : List HostAction) (s : State) :
    waitPoll rest s =
      { s with rdata := statusWord s, host := if s.done then rest else s.host } := by
  have hd : doneBit (statusWord s) = s.done := by
    unfold doneBit statusWord
    rw [BitVec.getLsbD_setWidth, BitVec.getLsbD_append, BitVec.getLsbD_append]
    cases s.done <;> rfl
  unfold waitPoll
  simp only [regRead_rdata, Reg.drawnWhileBusy, Bool.and_false, Bool.false_eq_true, if_false, storedValue, hd]
  cases hs : s.done <;> simp [regRead, Reg.drawnWhileBusy, storedValue, hs]

@[simp] theorem Reg.ofIndex_index (r : Reg) : Reg.ofIndex r.index = r := by cases r <;> rfl

@[simp] theorem Reg.index_ofIndex (i : Fin 8) : (Reg.ofIndex i).index = i := by
  revert i; decide

/-! ### Operands and verdicts -/

theorem modulusOperand_some {s : State} (h : s.m ≠ 0) : modulusOperand s = some ⟨s.m, h⟩ := dif_pos h

theorem modulusOperand_none {s : State} (h : s.m = 0) : modulusOperand s = none := dif_neg (not_not.mpr h)

theorem mrOperand_some {s : State} (h : MrDomain s.m) : mrOperand s = some ⟨s.m, h⟩ := dif_pos h

theorem mrOperand_none {s : State} (h : ¬ MrDomain s.m) : mrOperand s = none := dif_neg h

theorem verdictWord_eq (b : Bool) : verdictWord b = if b then 1 else 0 := by cases b <;> rfl

/-! ### The commands, by phase -/

/-- While the block is idle a command's step is its issue: acceptance, or an error completion (R150). -/
theorem exec_idle {i : Instr} {s : State} (h : s.busy = false) :
    exec i s = .next (acceptCommand s) ∨ ∃ c, exec i s = .next (raiseError c s) := by
  cases i with
  | mulmod =>
    simp only [exec, execMulmod, h]
    cases modulusOperand s with
    | none => exact .inr ⟨_, rfl⟩
    | some _ => exact .inl rfl
  | powmod =>
    simp only [exec, execPowmod, h]
    cases modulusOperand s with
    | none => exact .inr ⟨_, rfl⟩
    | some _ => exact .inl rfl
  | mrtest =>
    simp only [exec, execMrtest, h]
    cases mrOperand s with
    | none => exact .inr ⟨_, rfl⟩
    | some _ => exact .inl rfl
  | isprime => simp [exec, execIsprime, h]

/-- While the block is busy a command's step is its completion: a result, an accumulator, BUSY 0 and DONE 1 (R151), or
outside the command's domain a refusal. -/
theorem exec_busy {i : Instr} {s : State} (h : s.busy = true) :
    (∃ x y k, exec i s = .next (deliver x y { s with draws := k }) ∧ s.draws ≤ k) ∨
      exec i s = .refused .operandOutsideDomain := by
  cases i with
  | mulmod =>
    simp only [exec, execMulmod, h]
    cases modulusOperand s with
    | none => exact .inr rfl
    | some m => exact .inl ⟨_, _, s.draws, rfl, le_rfl⟩
  | powmod =>
    simp only [exec, execPowmod, h]
    cases modulusOperand s with
    | none => exact .inr rfl
    | some m => exact .inl ⟨_, _, _, rfl, Nat.le_succ _⟩
  | mrtest =>
    simp only [exec, execMrtest, h]
    cases mrOperand s with
    | none => exact .inr rfl
    | some m => exact .inl ⟨_, _, _, rfl, Nat.le_succ _⟩
  | isprime =>
    simp only [exec, execIsprime, h]
    exact .inl ⟨_, _, _, rfl, Nat.le_succ _⟩

/-- What an idle CMD write answers: acceptance or an error completion, of the state that holds the word (R150, R163). -/
theorem issue_spec {v : Word} {s : State} (h : s.busy = false) :
    issue v s = .next (acceptCommand { s with cmd := v }) ∨
      ∃ c, issue v s = .next (raiseError c { s with cmd := v }) := by
  unfold issue
  cases decodeWord v with
  | error _ => exact .inr ⟨_, rfl⟩
  | ok i => exact exec_idle h

/-- Everything a host write can do (R53). -/
theorem regWrite_cases (r : Reg) (v : Word) (s : State) :
    (s.busy = true ∧ r ∈ [Reg.a, .b, .m, .cmd] ∧ regWrite r v s = .next (flagOverrun s)) ∨
    (s.busy = false ∧ r = .a ∧ regWrite r v s = .next { s with a := v }) ∨
    (s.busy = false ∧ r = .b ∧ regWrite r v s = .next { s with b := v }) ∨
    (s.busy = false ∧ r = .m ∧ regWrite r v s = .next { s with m := v }) ∨
    (s.busy = false ∧ r = .cmd ∧ (regWrite r v s = .next (acceptCommand { s with cmd := v }) ∨
      ∃ c, regWrite r v s = .next (raiseError c { s with cmd := v }))) ∨
    (r = .status ∧ regWrite r v s = .next (writeStatus v s)) ∨
    (r ∈ [Reg.result, .accLo, .accHi] ∧ regWrite r v s = .next s) := by
  cases hb : s.busy <;> cases r <;> simp [regWrite, hb]
  exact issue_spec hb

/-- A write always answers a next state: the block has no error response (R53, R160). -/
theorem regWrite_next (r : Reg) (v : Word) (s : State) : ∃ t, regWrite r v s = .next t := by
  rcases regWrite_cases r v s with ⟨-, -, h⟩ | ⟨-, -, h⟩ | ⟨-, -, h⟩ | ⟨-, -, h⟩ | ⟨-, -, h | ⟨c, h⟩⟩ | ⟨-, h⟩ | ⟨-, h⟩ <;>
    exact ⟨_, h⟩

end Sys2Proof.Machine
end

