-- ==== Sys2Proof/Laws/PerInstr.lean ====
section
/-! SUPPORT. Families of statements over all commands, one lemma a constructor. -/

namespace Sys2Proof.Laws.EncodingLegal

/-- A command's word is a legal command word (R71) and keeps the reserved bits zero (R70). -/
def Statement (i : Instr) : Prop :=
  legalWord (encode i) = true ∧ reservedField (encode i) = 0 ∧ decodeOpcode (opcodeField (encode i)) = some i

theorem mulmod : Statement .mulmod := by unfold Statement; decide
theorem powmod : Statement .powmod := by unfold Statement; decide
theorem mrtest : Statement .mrtest := by unfold Statement; decide
theorem isprime : Statement .isprime := by unfold Statement; decide

end Sys2Proof.Laws.EncodingLegal
end

