-- ==== Sys2Proof/Laws/Step.lean ====
section
/-! SUPPORT. What one step can do, said once. -/

namespace Sys2Proof.Machine

/-- Everything the host's turn can do when it answers a next state. -/
theorem hostTurn_cases {s t : State} (h : hostTurn s = .next t) :
    (∃ x k l, t = { s with rdata := x, draws := k, host := l } ∧ s.draws ≤ k) ∨
    ∃ r v rest, regWrite r v { s with host := rest } = .next t ∧
      (s.host = .wr r v :: rest ∨
        ∃ addr len, s.host = .memWrite addr len v :: rest ∧ targetOf addr len = .register r) := by
  unfold hostTurn at h
  split at h
  case h_1 hs =>
    cases h
    exact .inl ⟨s.rdata, s.draws, s.host, rfl, le_rfl⟩
  case h_2 r rest hs =>
    obtain ⟨x, k, hr, hk, -⟩ := regRead_spec r { s with host := rest }
    rw [hr] at h
    cases h
    exact .inl ⟨x, k, rest, rfl, hk⟩
  case h_3 r v rest hs => exact .inr ⟨r, v, rest, h, .inl hs⟩
  case h_4 rest hs =>
    rw [waitPoll_spec] at h
    cases h
    exact .inl ⟨_, s.draws, _, rfl, le_rfl⟩
  case h_5 addr len rest hs =>
    split at h
    case h_1 r hr =>
      obtain ⟨x, k, hr, hk, -⟩ := regRead_spec r { s with host := rest }
      rw [hr] at h
      cases h
      exact .inl ⟨x, k, rest, rfl, hk⟩
    case h_2 => cases h; exact .inl ⟨s.rdata, s.draws, rest, rfl, le_rfl⟩
    case h_3 => cases h
  case h_6 addr len v rest hs =>
    split at h
    case h_1 r hr => exact .inr ⟨r, v, rest, h, .inr ⟨addr, len, hs, hr⟩⟩
    case h_2 => cases h; exact .inl ⟨s.rdata, s.draws, rest, rfl, le_rfl⟩
    case h_3 => cases h

/-- The inversion of a step. From `step s = .next t`, one of: a reset; the completion of the command in progress; the
host's turn without a write to the block, or a block's turn while idle; a host write to the block, which the state
announces as `nextWrite`. -/
theorem step_cases {s t : State} (h : step s = .next t) :
    (∃ d ts, s.turns = .reset d :: ts ∧ s.resetMoves = true ∧ s.blockCompletes = false ∧
      t = resetStep d { s with turns := ts }) ∨
    (s.blockCompletes = true ∧ ∃ i, decodeOpcode (opcodeField s.cmd) = some i ∧
      exec i { s with turns := s.turns.tail } = .next t) ∨
    (s.resetMoves = false ∧ s.blockCompletes = false ∧
      ∃ x k l, t = { s with rdata := x, draws := k, host := l, turns := s.turns.tail } ∧ s.draws ≤ k) ∨
    (∃ r v rest, s.resetMoves = false ∧ s.blockCompletes = false ∧ s.nextWrite = some (r, v) ∧
      regWrite r v { s with host := rest, turns := s.turns.tail } = .next t) := by
  have host : ∀ {u : State}, u = { s with turns := s.turns.tail } → s.hostMoves = true →
      s.resetMoves = false → s.blockCompletes = false → hostTurn u = .next t →
      (∃ x k l, t = { s with rdata := x, draws := k, host := l, turns := s.turns.tail } ∧ s.draws ≤ k) ∨
      (∃ r v rest, s.resetMoves = false ∧ s.blockCompletes = false ∧ s.nextWrite = some (r, v) ∧
        regWrite r v { s with host := rest, turns := s.turns.tail } = .next t) := by
    intro u hu hm hr hc ht
    subst hu
    rcases hostTurn_cases ht with ⟨x, k, l, rfl, hk⟩ | ⟨r, v, rest, hw, hh⟩
    · exact .inl ⟨x, k, l, rfl, hk⟩
    · refine .inr ⟨r, v, rest, hr, hc, ?_, hw⟩
      rcases hh with hh | ⟨addr, len, hh, htgt⟩
      · have : s.host = .wr r v :: rest := hh
        simp [State.nextWrite, hm, this]
      · have : s.host = .memWrite addr len v :: rest := hh
        simp [State.nextWrite, hm, this, htgt]
  have done : ∀ {u : State}, u = { s with turns := s.turns.tail } → s.blockCompletes = true →
      complete u = .next t → ∃ i, decodeOpcode (opcodeField s.cmd) = some i ∧
        exec i { s with turns := s.turns.tail } = .next t := by
    intro u hu _ ht
    subst hu
    unfold complete at ht
    split at ht
    case h_1 i hi => exact ⟨i, hi, ht⟩
    case h_2 => cases ht
  unfold step takeTurn at h
  split at h
  case h_1 hs =>
    have hu : s = { s with turns := s.turns.tail } := by
      rw [show s.turns.tail = s.turns by rw [hs]; rfl]
    split at h
    case isTrue hb =>
      have hc : s.blockCompletes = true := by simp [State.blockCompletes, hs, hb]
      exact .inr (.inl ⟨hc, done hu hc h⟩)
    case isFalse hb =>
      have hr : s.resetMoves = false := by simp [State.resetMoves, hs]
      have hc : s.blockCompletes = false := by simp [State.blockCompletes, hb]
      have hm : s.hostMoves = true := by simp [State.hostMoves, hs, hb]
      rcases host hu hm hr hc h with hp | hw
      · exact .inr (.inr (.inl ⟨hr, hc, hp⟩))
      · exact .inr (.inr (.inr hw))
  case h_2 ts hs =>
    have ht : s.turns.tail = ts := by rw [hs]; rfl
    have hr : s.resetMoves = false := by simp [State.resetMoves, hs]
    have hc : s.blockCompletes = false := by simp [State.blockCompletes, hs]
    have hm : s.hostMoves = true := by simp [State.hostMoves, hs]
    rcases host (by rw [ht]) hm hr hc h with hp | hw
    · exact .inr (.inr (.inl ⟨hr, hc, hp⟩))
    · exact .inr (.inr (.inr hw))
  case h_3 ts hs =>
    have ht : s.turns.tail = ts := by rw [hs]; rfl
    unfold blockTurn at h
    split at h
    case isTrue hb =>
      have hc : s.blockCompletes = true := by
        have hb' : s.busy = true := hb
        simp [State.blockCompletes, hs, hb']
      exact .inr (.inl ⟨hc, done (by rw [ht]) hc h⟩)
    case isFalse hb =>
      have hb' : ¬ s.busy = true := hb
      cases h
      refine .inr (.inr (.inl ⟨by simp [State.resetMoves, hs], by simp [State.blockCompletes, hb'], ?_⟩))
      exact ⟨s.rdata, s.draws, s.host, by rw [ht], le_rfl⟩
  case h_4 d ts hs =>
    cases h
    exact .inl ⟨d, ts, hs, by simp [State.resetMoves, hs], by simp [State.blockCompletes, hs], rfl⟩

/-- A step at which the host moves is the host's turn. -/
theorem step_of_hostMoves {s : State} (h : s.hostMoves = true) :
    step s = hostTurn { s with turns := s.turns.tail } := by
  unfold State.hostMoves at h
  unfold step takeTurn
  split at h
  case h_1 ht =>
    rw [Bool.not_eq_true'] at h
    simp only [ht, h, Bool.false_eq_true, if_false]
    congr 1
    cases s; simp_all
  case h_2 ht => simp [ht]
  case h_3 => cases h

/-- A step at which the block completes is the completion step. -/
theorem step_of_blockCompletes {s : State} (h : s.blockCompletes = true) :
    step s = complete { s with turns := s.turns.tail } := by
  unfold State.blockCompletes at h
  rw [Bool.and_eq_true] at h
  obtain ⟨hb, h⟩ := h
  unfold step takeTurn
  split at h
  case h_1 ht =>
    simp only [ht, hb, if_true]
    congr 1
    cases s; simp_all
  case h_2 ht => simp [ht, blockTurn, hb]
  case h_3 => cases h

end Sys2Proof.Machine
end

