-- ==== Sys2Proof/Tests/Slice0.lean ====
section
/-! SUPPORT. The model's own tests. Expected values come from spec/ (the id of the vector of 95_test_vectors.md stands in
each name), and a witness for the hypotheses of every statement that has some. -/

namespace Sys2Proof.Tests

open Sys2Proof.Machine

/-! ### Helpers: small states, and the parts of an outcome that a test looks at -/

/-- An idle block with these operands (DONE = 1 as after a completed command). -/
def idle (a b m : Word) : State := { State.reset with a := a, b := b, m := m, done := true }

/-- A block with the command word `c` in progress. -/
def busyWith (c a b m : Word) : State := { State.reset with cmd := c, a := a, b := b, m := m, busy := true }

/-- The host's turn with this access to make. -/
def withHost (x : HostAction) (s : State) : State := { s with host := [x], turns := [.host] }

/-- The next state meets the check. -/
def nextMeets (o : Host.Outcome State Fault Refusal) (p : State → Bool) : Bool :=
  match o with
  | .next t => p t
  | .fault _ => false
  | .refused _ => false

/-! ### Well-formedness: every check refuses something -/

theorem test_legalWord_accepts : legalWord 0x4 = true := by decide
theorem test_legalWord_refuses_reserved_bit_X4 : legalWord 0x101 = false := by decide
theorem test_legalWord_refuses_opcode_X2 : legalWord 0x5 = false := by decide
theorem test_modulusOk_refuses_zero : ¬ ModulusOk 0 := by decide
theorem test_mrDomain_refuses_even_X11 : ¬ MrDomain 4 := by decide
theorem test_mrDomain_refuses_one_X9 : ¬ MrDomain 1 := by decide
theorem test_mrDomain_accepts_X15 : MrDomain 3 := by decide
theorem test_wholeRegister_refuses_misaligned : wholeRegister 64 65 8 = false := by decide
theorem test_wholeRegister_refuses_narrow : wholeRegister 64 72 4 = false := by decide
theorem test_wholeRegister_accepts_last : wholeRegister 64 120 8 = true := by decide
theorem test_touchesWindow_refuses_next_byte : touchesWindow 64 128 8 = false := by decide

/-! ### Decoding: words written out from R71, bit by bit, and illegal words -/

theorem test_decode_mulmod : decodeTableWord 64
    0b0000000000000000000000000000000000000000000000000000000000000001 = some .mulmod := by decide
theorem test_decode_powmod : decodeTableWord 64
    0b0000000000000000000000000000000000000000000000000000000000000010 = some .powmod := by decide
theorem test_decode_mrtest : decodeTableWord 64
    0b0000000000000000000000000000000000000000000000000000000000000011 = some .mrtest := by decide
theorem test_decode_isprime : decodeTableWord 64
    0b0000000000000000000000000000000000000000000000000000000000000100 = some .isprime := by decide
theorem test_decode_zero_X1 : decodeTableWord 64 0 = none := by decide
theorem test_decode_bit63_X5 : decodeTableWord 64 0x8000000000000004 = none := by decide

/-! ### The tables and the functions -/

/-- The hexadecimal column of R73, beside the decimal literals. -/
theorem test_witnesses_hex_R73 :
    witnesses = [0x2, 0x145, 0x249F, 0x6E12, 0x6E0D7, 0x953D18, 0x6B0191FE] := by decide

/-- M25: a full 128-bit product. -/
theorem test_wmul_M25 : wmul 0x123456789ABCDEF0 0xFEDCBA9876543210 =
    0x121FA00AD77D7422236D88FE5618CF00 := by decide
/-- M19: the reduction of a 65-bit product. -/
theorem test_mulmod_M19 : mulmod 0x8000000000000000 2 ⟨0x8000000000000001, by decide⟩ = 0x7FFFFFFFFFFFFFFF := by
  decide +kernel
/-- M26, by the fallback. -/
theorem test_mulmodBin_M26 :
    mulmodBin 12345678901234567890 9876543210987654321 ⟨1000000007, by decide⟩ = 77470638 := by decide +kernel
theorem test_powmod_W30 : powmod 0xDEADBEEFCAFEBABE 0x0123456789ABCDEF ⟨0xFFFFFFFFFFFFFFC5, by decide⟩ =
    0x77138FCD11DB9753 := by decide +kernel
theorem test_powmod_zero_exponent_W7 : powmod 5 0 ⟨1, by decide⟩ = 0 := by decide +kernel
theorem test_decompose_T28 : decompose ⟨0x8000000000000001, by decide⟩ = (1, 63) := by decide +kernel
/-- T19: base 28178 passes only on the last allowed squaring. -/
theorem test_witnessPass_T19 : witnessPass 28178 ⟨65537, by decide⟩ 1 16 = true := by decide +kernel
/-- T12: without the skip of a base that `n` divides, 73 would fail. -/
theorem test_mr7_skip_T12 : mr7 ⟨73, by decide⟩ = true := by decide +kernel
/-- T24: passes the first three bases. -/
theorem test_mr7_T24 : mr7 ⟨341550071728321, by decide⟩ = false := by decide +kernel
theorem test_trial_R139 : trial 1 = .undecided ∧ trial 0 = .composite ∧ trial 37 = .prime := by decide +kernel

/-! ### The commands -/

/-- M11: the completion of MULMOD. -/
theorem test_mulmod_completes_M11 :
    nextMeets (exec .mulmod (busyWith 1 0xFFFFFFFFFFFFFFFF 0xFFFFFFFFFFFFFFFF 0xFFFFFFFFFFFFFFFE))
      (fun t => t.acc == 0xFFFFFFFFFFFFFFFE0000000000000001 && t.result == 1 && !t.busy && t.done) = true := by
  decide +kernel
/-- X6: MULMOD with `M = 0`. -/
theorem test_mulmod_zero_X6 :
    nextMeets (exec .mulmod (idle 7 9 0)) (fun t => statusWord t == 0x26 && t.a == 7) = true := by decide +kernel
/-- W22: the completion of POWMOD. -/
theorem test_powmod_completes_W22 :
    nextMeets (exec .powmod (busyWith 2 2 0xFFFFFFFFFFFFFFFF 0xFFFFFFFFFFFFFFC5))
      (fun t => t.result == 0x0800000000000000 && statusWord t == 0x2) = true := by decide +kernel
/-- X7: POWMOD with `M = 0`. -/
theorem test_powmod_zero_X7 :
    nextMeets (exec .powmod (idle 7 9 0)) (fun t => statusWord t == 0x26) = true := by decide +kernel
/-- T29: MRTEST on the largest prime below `2^64`. -/
theorem test_mrtest_completes_T29 :
    nextMeets (exec .mrtest (busyWith 3 0 0 0xFFFFFFFFFFFFFFC5)) (fun t => t.result == 1) = true := by decide +kernel
/-- X8: MRTEST with `M = 0` is MR_DOMAIN, not ZERO_MODULUS. -/
theorem test_mrtest_zero_X8 :
    nextMeets (exec .mrtest (idle 7 9 0)) (fun t => statusWord t == 0x36) = true := by decide +kernel
/-- I23: the least composite that the Miller-Rabin stage decides. -/
theorem test_isprime_completes_I23 :
    nextMeets (exec .isprime (busyWith 4 0 0 1681)) (fun t => t.result == 0 && t.done) = true := by decide +kernel
/-- X14: ISPRIME accepts `M = 0`. -/
theorem test_isprime_accepts_X14 :
    nextMeets (exec .isprime (idle 7 9 0)) (fun t => statusWord t == 0x1) = true := by decide +kernel

/-! ### Steps -/

/-- The very first step after reset issues the word that is presented to it. -/
theorem test_first_step_isprime :
    nextMeets (step (State.reset.withFetchWord 64 4)) (fun t => statusWord t == 0x1 && t.cmd == 4) = true := by
  decide +kernel
/-- X13: an illegal word with `M = 0` reports the word. -/
theorem test_illegal_word_X13 :
    nextMeets (step (withHost (.wr .cmd 0x105) (idle 7 9 0)))
      (fun t => statusWord t == 0x16 && t.cmd == 0x105) = true := by decide +kernel
/-- H8: a dropped operand write. -/
theorem test_dropped_write_H8 :
    nextMeets (step (withHost (.wr .a 5) (busyWith 2 3 13 7))) (fun t => statusWord t == 0x9 && t.a == 3) = true := by
  decide +kernel
/-- H9: a dropped illegal word raises no ILLEGAL_CMD. -/
theorem test_dropped_word_H9 :
    nextMeets (step (withHost (.wr .cmd 0xFF) (busyWith 2 3 13 7)))
      (fun t => statusWord t == 0x9 && t.cmd == 2) = true := by decide +kernel
/-- H14 and H15: a STATUS write clears OVR and nothing else. -/
theorem test_status_write_H15 :
    nextMeets (step (withHost (.wr .status 0x8) { idle 7 9 0 with err := true, errCode := 2, ovr := true }))
      (fun t => statusWord t == 0x26) = true := by decide +kernel
/-- H5: ACC is read only, and its halves are read in place. -/
theorem test_read_accHi : nextMeets (step (withHost (.rd .accHi) { idle 7 9 0 with acc := 0x1_0000000000000002 }))
    (fun t => t.rdata == 1) = true := by decide +kernel
/-- H17: reset during a command. -/
theorem test_reset_H17 :
    nextMeets (step { busyWith 2 3 13 7 with turns := [.reset ⟨1, 2, 3, 4, 5, 6⟩] })
      (fun t => statusWord t == 0 && t.cmd == 0 && t.acc == 0x6_0000000000000005) = true := by decide +kernel
/-- `WAIT` ends when DONE is 1 and stays the host's next while it is 0 (R79). -/
theorem test_wait_R79 :
    nextMeets (step (withHost .wait (idle 7 9 0))) (fun t => t.host == [] && t.rdata == 0x2) = true ∧
    nextMeets (step (withHost .wait (busyWith 2 3 13 7))) (fun t => t.host == [.wait] && t.rdata == 0x1) = true := by
  decide +kernel

/-! ### Witnesses: each statement's hypotheses are met -/

theorem invariants_of_busy_isprime (a b m : Word) (h : List HostAction) (t : List Turn) :
    Invariants { busyWith 4 a b m with host := h, turns := t } := by
  constructor <;> simp [busyWith, State.reset, reservedField, opcodeField]

/-- `DecodeIsTheTotalOpcodeMap`: a word for each clause, at the edges of the opcode map. -/
theorem witness_DecodeIsTheTotalOpcodeMap :
    ((0x0000000000000100 : Word).extractLsb' 8 56 ≠ 0) ∧
    ([(1 : Word), 2, 3, 4, 0, 5, 0xFF].all fun v => v.extractLsb' 8 56 == 0) ∧
    ((1 : Word).extractLsb' 0 8 = 0x01) ∧ ((2 : Word).extractLsb' 0 8 = 0x02) ∧
    ((3 : Word).extractLsb' 0 8 = 0x03) ∧ ((4 : Word).extractLsb' 0 8 = 0x04) ∧
    ((0 : Word).extractLsb' 0 8 ∉ [0x01, 0x02, 0x03, 0x04]) ∧
    ((5 : Word).extractLsb' 0 8 ∉ [0x01, 0x02, 0x03, 0x04]) := by
  refine ⟨?_, ?_, ?_, ?_, ?_, ?_, ?_, ?_⟩ <;> decide

/-- `MulmodIsTheExactResidue`, its last clause. -/
theorem witness_MulmodIsTheExactResidue :
    (3 : Word).toNat * (4 : Word).toNat < (⟨13, by decide⟩ : Modulus).val.toNat := by decide

/-- `PowmodCornerCases`: `M = 2` and operands at the edges, a clause each. -/
theorem witness_PowmodCornerCases :
    (1 < (2 : Word).toNat) ∧
    ((2 : Word).toNat % (2 : Word).toNat = 0 ∧ 1 ≤ (1 : Word).toNat) ∧
    ((3 : Word).toNat % (2 : Word).toNat = 1 ∧ 1 < (2 : Word).toNat) ∧
    ((2 : Word) ≤ 2) := by decide

/-- `UndecidedNumbersSuitMillerRabin`: the least number that reaches the stage. -/
theorem witness_UndecidedNumbersSuitMillerRabin :
    (2 : Word) ≤ 41 ∧ trial 41 = .undecided ∧ MrDomain 41 := by decide +kernel

/-- `IsPrimeRunsThreeStages`, its second and third clauses. -/
theorem witness_IsPrimeRunsThreeStages : ((1 : Word) < 2) ∧ (2 < (4 : Word).toNat ∧ (4 : Word).toNat % 2 = 0) := by
  decide

/-- `NoPrimeIsRejected`: 3 and 2, the least of each clause. -/
theorem witness_NoPrimeIsRejected :
    (⟨3, by decide⟩ : MrNumber).val.toNat.Prime ∧ (2 : Word).toNat.Prime := ⟨Nat.prime_three, Nat.prime_two⟩

theorem witness_IsPrimeIsExactBelow1681 : (1680 : Word) < 1681 := by decide

/-- `IsPrimeIsExactWhereTheBasesAre`: 43 is prime, so the bases are right about it. -/
theorem witness_IsPrimeIsExactWhereTheBasesAre :
    ∃ h : MrDomain 43, (mr7 ⟨43, h⟩ = true → (43 : Word).toNat.Prime) :=
  ⟨by decide, fun _ => by change Nat.Prime 43; norm_num⟩

/-- `MulmodCommand` and `PowmodCommand`: a state for each clause, `M` at 0 and at its least legal value. -/
theorem witness_MulmodCommand_PowmodCommand :
    ((idle 7 9 0).busy = false ∧ (idle 7 9 0).m = 0) ∧
    ((idle 7 9 1).busy = false ∧ (idle 7 9 1).m ≠ 0) ∧
    ((busyWith 1 7 9 1).busy = true ∧ (busyWith 1 7 9 1).m ≠ 0) := by decide

/-- `MrtestCommand`: `M` at 2, 4 and 3. -/
theorem witness_MrtestCommand :
    ((idle 0 0 2).busy = false ∧ ((idle 0 0 2).m < 3 ∨ (idle 0 0 2).m.getLsbD 0 = false)) ∧
    ((idle 0 0 4).busy = false ∧ ((idle 0 0 4).m < 3 ∨ (idle 0 0 4).m.getLsbD 0 = false)) ∧
    ((idle 0 0 3).busy = false ∧ 3 ≤ (idle 0 0 3).m ∧ (idle 0 0 3).m.getLsbD 0 = true) ∧
    ((busyWith 3 0 0 3).busy = true ∧ MrDomain (busyWith 3 0 0 3).m) := by decide

theorem witness_IsprimeCommand : (idle 0 0 0).busy = false ∧ (busyWith 4 0 0 0).busy = true := by decide

/-- `CompletionOutsideTheDomainStops`: a state for each clause (no run reaches any of them). -/
theorem witness_CompletionOutsideTheDomainStops :
    ((busyWith 1 7 9 0).busy = true ∧ (busyWith 1 7 9 0).m = 0) ∧
    ((busyWith 3 7 9 4).busy = true ∧ ¬ MrDomain (busyWith 3 7 9 4).m) ∧
    ((busyWith 5 7 9 4).busy = true ∧ (busyWith 5 7 9 4).blockCompletes = true ∧
      (busyWith 5 7 9 4).cmd.extractLsb' 0 8 ∉ [0x01, 0x02, 0x03, 0x04]) := by decide

/-- `PrimalityCommandsReadOnlyM`: two states that differ in A and B, busy and idle. -/
theorem witness_PrimalityCommandsReadOnlyM :
    (∃ s t s' t', s.busy = true ∧ s.busy = t.busy ∧ s.m = t.m ∧ s.a ≠ t.a ∧
      exec .isprime s = .next s' ∧ exec .isprime t = .next t') ∧
    (∃ s t s' t', s.busy = false ∧ s.busy = t.busy ∧ s.m = t.m ∧ s.a ≠ t.a ∧
      exec .mrtest s = .next s' ∧ exec .mrtest t = .next t') :=
  ⟨⟨busyWith 4 0 0 0, busyWith 4 1 1 0, _, _, rfl, rfl, rfl, by decide, rfl, rfl⟩,
   ⟨idle 0 0 3, idle 1 1 3, _, _, rfl, rfl, rfl, by decide, rfl, rfl⟩⟩

theorem witness_StepIssuesTheDecodedCommand :
    ∃ s v rest i, State.hostMoves s = true ∧ s.host = .wr .cmd v :: rest ∧ s.busy = false ∧ decodeWord v = .ok i :=
  ⟨withHost (.wr .cmd 1) (idle 7 9 10), 1, [], .mulmod, rfl, rfl, rfl, rfl⟩

theorem witness_StepCompletesTheCommandInProgress :
    ∃ s i, State.blockCompletes s = true ∧ decodeOpcode (s.cmd.extractLsb' 0 8) = some i :=
  ⟨{ busyWith 4 0 0 0 with turns := [.block] }, .isprime, rfl, rfl⟩

/-- `CmdWriteChecksInOrder` and the CMD cases of `HostWriteFollowsTheCases`: a word and a state for each clause. -/
theorem witness_CmdWriteChecksInOrder :
    ((withHost (.wr .cmd 1) (busyWith 2 3 13 7)).hostMoves = true ∧ (busyWith 2 3 13 7).busy = true) ∧
    ((withHost (.wr .cmd 0) (idle 0 0 0)).hostMoves = true ∧ (idle 0 0 0).busy = false ∧ legalWord 0 = false) ∧
    ((withHost (.wr .cmd 2) (idle 0 0 0)).hostMoves = true ∧ (idle 0 0 0).m = 0) ∧
    ((withHost (.wr .cmd 3) (idle 0 0 2)).hostMoves = true ∧ (idle 0 0 2).m < 3) ∧
    ((withHost (.wr .cmd 3) (idle 0 0 3)).hostMoves = true ∧ 3 ≤ (idle 0 0 3).m ∧
      (idle 0 0 3).m.getLsbD 0 = true) ∧
    ((withHost (.wr .cmd 1) (idle 0 0 1)).hostMoves = true ∧ (idle 0 0 1).m ≠ 0) ∧
    ((withHost (.wr .cmd 4) (idle 0 0 0)).hostMoves = true) := by decide

/-- `HostReadReturnsTheRegister`: idle and busy. -/
theorem witness_HostReadReturnsTheRegister :
    (∃ s r rest, State.hostMoves s = true ∧ s.host = .rd r :: rest ∧ s.busy = false ∧ r = .accHi) ∧
    (∃ s r rest, State.hostMoves s = true ∧ s.host = .rd r :: rest ∧ s.busy = true ∧ r = .status) :=
  ⟨⟨withHost (.rd .accHi) (idle 0 0 0), _, _, rfl, rfl, rfl, rfl⟩,
   ⟨withHost (.rd .status) (busyWith 4 0 0 0), _, _, rfl, rfl, rfl, rfl⟩⟩

/-- `HostWriteFollowsTheCases`: the registers at both ends of each case, busy and idle. -/
theorem witness_HostWriteFollowsTheCases :
    (∀ r ∈ [Reg.a, .b, .m, .cmd, .status, .result, .accLo, .accHi],
      (withHost (.wr r 8) (idle 0 0 0)).hostMoves = true ∧ (withHost (.wr r 8) (idle 0 0 0)).host = .wr r 8 :: [] ∧
      (withHost (.wr r 8) (idle 0 0 0)).busy = false ∧
      (withHost (.wr r 8) (busyWith 4 0 0 0)).hostMoves = true ∧ (withHost (.wr r 8) (busyWith 4 0 0 0)).busy = true) := by
  decide

theorem witness_WindowMapsTheRegisters : (withHost .wait (idle 0 0 0)).hostMoves = true := rfl

/-- `OtherTransfersNeverReachTheBlock`: the first byte past the window, and a transfer one byte off a register. -/
theorem witness_OtherTransfersNeverReachTheBlock :
    (Config.base + 64 ≤ Config.base + 64) ∧
    (Config.base + 1 < Config.base + 64 ∧ Config.base < Config.base + 1 + 8 ∧ 0 < 8 ∧
      ¬ (8 = 8 ∧ Config.base ≤ Config.base + 1 ∧ (Config.base + 1 - Config.base) % 8 = 0)) ∧
    (withHost (.memRead (Config.base + 64) 8) (idle 0 0 0)).hostMoves = true ∧
    (withHost (.memWrite (Config.base + 1) 8 0) (idle 0 0 0)).hostMoves = true := by
  refine ⟨le_rfl, ⟨by omega, by omega, by omega, by omega⟩, rfl, rfl⟩

theorem witness_WaitPollsUntilDone :
    ∃ s rest, State.hostMoves s = true ∧ s.host = .wait :: rest :=
  ⟨withHost .wait (busyWith 4 0 0 0), [], rfl, rfl⟩

theorem witness_ResetStepFromAnyState :
    ∃ s d ts, s.busy = true ∧ State.turns s = .reset d :: ts :=
  ⟨{ busyWith 4 0 0 0 with turns := [.reset ⟨1, 2, 3, 4, 5, 6⟩] }, _, _, rfl, rfl⟩

/-- `StepKeepsTheInvariants`, `StepNeverStopsUnderTheInvariants`: a busy state that completes. -/
theorem witness_StepKeepsTheInvariants :
    ∃ s t, Invariants s ∧ s.busy = true ∧ (∀ x ∈ s.host, x.direct = true) ∧ step s = .next t :=
  ⟨{ busyWith 4 0 0 0 with host := [], turns := [] }, _, invariants_of_busy_isprime 0 0 0 [] [], rfl, by simp, rfl⟩

/-- `CommandInProgressIsUndisturbed`: a step that leaves the block busy, and one that completes. -/
theorem witness_CommandInProgressIsUndisturbed :
    (∃ s t, s.busy = true ∧ State.resetMoves s = false ∧ step s = .next t ∧ t.busy = true) ∧
    (∃ s t, s.busy = true ∧ State.resetMoves s = false ∧ step s = .next t ∧ t.busy = false) :=
  ⟨⟨withHost (.wr .m 5) (busyWith 4 0 0 0), _, rfl, rfl, rfl, rfl⟩,
   ⟨{ busyWith 4 0 0 0 with turns := [.block] }, _, rfl, rfl, rfl, rfl⟩⟩

/-- `BusyEndsByCompletionOrReset`: both ways. -/
theorem witness_BusyEndsByCompletionOrReset :
    (∃ s t, s.busy = true ∧ step s = .next t ∧ t.busy = false ∧ State.resetMoves s = true) ∧
    (∃ s t, s.busy = true ∧ step s = .next t ∧ t.busy = false ∧ State.blockCompletes s = true) :=
  ⟨⟨{ busyWith 4 0 0 0 with turns := [.reset ⟨1, 2, 3, 4, 5, 6⟩] }, _, rfl, rfl, rfl, rfl⟩,
   ⟨{ busyWith 4 0 0 0 with turns := [.block] }, _, rfl, rfl, rfl, rfl⟩⟩

/-- `OnlyIdleHostWritesChangeOperands`: a write that changes each register. -/
theorem witness_OnlyIdleHostWritesChangeOperands :
    ∀ r ∈ [Reg.a, .b, .m, .cmd], State.resetMoves (withHost (.wr r 4) (idle 0 0 0)) = false ∧
      nextMeets (step (withHost (.wr r 4) (idle 0 0 0)))
        (fun t => storedValue r t != storedValue r (idle 0 0 0)) = true := by decide +kernel

/-- `OnlyCompletionChangesResults`: a completion that changes both. -/
theorem witness_OnlyCompletionChangesResults :
    ∃ s t, State.resetMoves s = false ∧ step s = .next t ∧ t.result ≠ s.result ∧ t.acc ≠ s.acc :=
  ⟨busyWith 1 1 1 2, { busyWith 1 1 1 2 with acc := 1, result := 1, busy := false, done := true },
    rfl, rfl, by decide, by decide⟩

/-- `FlagsChangeOnlyAsTheTableSays`, its clauses on reset and on completion. -/
theorem witness_FlagsChangeOnlyAsTheTableSays_reset_completion :
    (∃ s t, State.resetMoves s = true ∧ s.busy = true ∧ s.ovr = true ∧ step s = .next t) ∧
    (∃ s t, State.blockCompletes s = true ∧ Invariants s ∧ step s = .next t) :=
  ⟨⟨{ busyWith 4 0 0 0 with ovr := true, turns := [.reset ⟨1, 2, 3, 4, 5, 6⟩] }, _, rfl, rfl, rfl, rfl⟩,
   ⟨{ busyWith 4 0 0 0 with host := [], turns := [.block] }, _, rfl,
    invariants_of_busy_isprime 0 0 0 [] [.block], rfl⟩⟩

/-- `FlagsChangeOnlyAsTheTableSays`: a step for each clause on one flag's change, in the clauses' order. -/
theorem witness_FlagsChangeOnlyAsTheTableSays :
    (nextMeets (step (withHost (.wr .cmd 4) { idle 0 0 0 with done := false })) (fun t => t.busy) = true) ∧
    (nextMeets (step (busyWith 4 0 0 0)) (fun t => !t.busy) = true) ∧
    (nextMeets (step (busyWith 4 0 0 0)) (fun t => t.done) = true) ∧
    (nextMeets (step (withHost (.wr .cmd 0) { idle 0 0 0 with done := false })) (fun t => t.done) = true) ∧
    (nextMeets (step (withHost (.wr .cmd 4) (idle 0 0 0))) (fun t => !t.done) = true) ∧
    (nextMeets (step (withHost (.wr .cmd 1) (idle 0 0 0))) (fun t => t.err) = true) ∧
    (nextMeets (step (withHost (.wr .cmd 4) { idle 0 0 0 with err := true, errCode := 2 })) (fun t => !t.err) = true) ∧
    (nextMeets (step (withHost (.wr .cmd 4) (busyWith 4 0 0 0))) (fun t => t.ovr) = true) ∧
    (nextMeets (step (withHost (.wr .status 8) { busyWith 4 0 0 0 with ovr := true })) (fun t => !t.ovr) = true) := by
  decide +kernel

theorem witness_IdleBlockHoldsItsState :
    ∃ s t, State.busy s = false ∧ s.resetMoves = false ∧ s.nextWrite = none ∧ step s = .next t :=
  ⟨withHost (.rd .result) (idle 1 2 3), _, rfl, rfl, rfl, rfl⟩

/-- `AcceptedCommandCompletes`: for each command a state in progress at the edge of its domain, with a host that
writes meanwhile. -/
theorem witness_AcceptedCommandCompletes :
    ∀ p ∈ [(encode .mulmod, (1 : Word)), (encode .powmod, 1), (encode .mrtest, 3), (encode .isprime, 0)],
      Invariants (withHost (.wr .a 5) (busyWith p.1 2 3 p.2)) ∧
      (withHost (.wr .a 5) (busyWith p.1 2 3 p.2)).busy = true ∧
      (∀ x ∈ (withHost (.wr .a 5) (busyWith p.1 2 3 p.2)).turns, x.isReset = false) ∧
      (∀ x ∈ (withHost (.wr .a 5) (busyWith p.1 2 3 p.2)).host, x.direct = true) ∧
      (p.1 = encode .mrtest → MrDomain (withHost (.wr .a 5) (busyWith p.1 2 3 p.2)).m) := by
  intro p hp
  simp only [List.mem_cons, List.not_mem_nil, or_false] at hp
  rcases hp with rfl | rfl | rfl | rfl <;>
    refine ⟨⟨?_, ?_, ?_, ?_, ?_, ?_⟩, rfl, by decide, by simp [withHost, HostAction.direct], by decide⟩ <;> decide

end Sys2Proof.Tests
end

section
/-! PROOFS. The family of 10_state.md: every step keeps the invariants (R31), and the flags change only as the table
of R24 says. Both go through `StepEvent`, which says once what a step can be. -/

namespace Sys2Proof.Machine

/-! ### Decoding -/

theorem decodeWord_eq_ok_iff {v : Word} {i : Instr} :
    decodeWord v = .ok i ↔ reservedField v = 0 ∧ decodeOpcode (opcodeField v) = some i := by
  unfold decodeWord
  split
  case isTrue hr => exact iff_of_false nofun fun h => hr h.1
  case isFalse hr => cases decodeOpcode (opcodeField v) <;> simp [not_not.mp hr]

theorem opcode_of_decodeOpcode {op : BitVec 8} {i : Instr} (h : decodeOpcode op = some i) :
    op = 1 ∨ op = 2 ∨ op = 3 ∨ op = 4 := by
  unfold decodeOpcode at h
  split_ifs at h with h1 h2 h3 h4
  · exact .inl h1
  · exact .inr (.inl h2)
  · exact .inr (.inr (.inl h3))
  · exact .inr (.inr (.inr h4))

theorem legalWord_of_decodeWord {v : Word} {i : Instr} (h : decodeWord v = .ok i) : legalWord v = true := by
  obtain ⟨hres, hop⟩ := decodeWord_eq_ok_iff.mp h
  have hr : v.extractLsb' 8 56 = 0 := hres
  have ho : v.extractLsb' 0 8 ∈ [0x01, 0x02, 0x03, 0x04] := by
    simpa [opcodeField] using opcode_of_decodeOpcode hop
  rw [legalWord, Bool.and_eq_true, beq_iff_eq, List.contains_iff_mem]
  exact ⟨hr, ho⟩

/-! ### The checks at issue -/

/-- M lies in the domain that R161 checks for the command. -/
def OperandOk (i : Instr) (m : Word) : Prop :=
  match i with
  | .mulmod | .powmod => ModulusOk m
  | .mrtest => MrDomain m
  | .isprime => True

/-- An idle block accepts a command exactly when M lies in the command's domain (R150, R161). -/
theorem exec_idle_checks {i : Instr} {s : State} (h : s.busy = false) :
    (OperandOk i s.m ∧ exec i s = .next (acceptCommand s)) ∨
      (¬ OperandOk i s.m ∧ ∃ c, exec i s = .next (raiseError c s)) := by
  cases i with
  | mulmod | powmod =>
    by_cases hm : s.m = 0
    · exact .inr ⟨not_not.mpr hm, .zeroModulus, by simp only [exec, execMulmod, execPowmod, h, modulusOperand_none hm]⟩
    · exact .inl ⟨hm, by simp only [exec, execMulmod, execPowmod, h, modulusOperand_some hm]⟩
  | mrtest =>
    by_cases hm : MrDomain s.m
    · exact .inl ⟨hm, by simp only [exec, execMrtest, h, mrOperand_some hm]⟩
    · exact .inr ⟨hm, .mrDomain, by simp only [exec, execMrtest, h, mrOperand_none hm]⟩
  | isprime => exact .inl ⟨trivial, by simp only [exec, execIsprime, h]⟩

/-- What an idle CMD write answers: a word that is accepted is a command, and M lies in its domain (R150, R163). -/
theorem issue_checks {v : Word} {s : State} (h : s.busy = false) :
    (∃ i, decodeWord v = .ok i ∧ OperandOk i s.m ∧ issue v s = .next (acceptCommand { s with cmd := v })) ∨
      ∃ c, issue v s = .next (raiseError c { s with cmd := v }) := by
  unfold issue
  cases hd : decodeWord v with
  | error _ => exact .inr ⟨_, rfl⟩
  | ok i =>
    rcases exec_idle_checks (i := i) (s := { s with cmd := v }) h with ⟨hm, he⟩ | ⟨-, c, he⟩
    · exact .inl ⟨i, rfl, hm, he⟩
    · exact .inr ⟨c, he⟩

/-! ### What a step can be -/

/-- The events of the total order (R59), each with the state it leaves. -/
inductive StepEvent (s : State) : State → Prop where
  /-- The environment resets the block (R181). -/
  | reset (d : ResetData) (hreset : s.resetMoves = true) :
      StepEvent s (resetStep d { s with turns := s.turns.tail })
  /-- The command in progress completes (R151). -/
  | completion (i : Instr) (x : Word) (y : Acc) (k : Nat) (hreset : s.resetMoves = false)
      (hcompletes : s.blockCompletes = true) (hbusy : s.busy = true)
      (hopcode : decodeOpcode (opcodeField s.cmd) = some i)
      (hexec : exec i { s with turns := s.turns.tail } =
        .next (deliver x y { s with turns := s.turns.tail, draws := k })) :
      StepEvent s (deliver x y { s with turns := s.turns.tail, draws := k })
  /-- No write reaches a register: a read, a poll, an ignored write, or nothing at all (R52, R79, R175). -/
  | quiet (x : Word) (k : Nat) (l : List HostAction) (hreset : s.resetMoves = false)
      (hcompletes : s.blockCompletes = false) :
      StepEvent s { s with rdata := x, draws := k, host := l, turns := s.turns.tail }
  /-- A write to A, B, M or CMD while busy (R53). -/
  | droppedWrite (r : Reg) (v : Word) (rest : List HostAction) (hreset : s.resetMoves = false)
      (hcompletes : s.blockCompletes = false) (hwrite : s.nextWrite = some (r, v)) (hbusy : s.busy = true)
      (hreg : r = .a ∨ r = .b ∨ r = .m ∨ r = .cmd) :
      StepEvent s (flagOverrun { s with host := rest, turns := s.turns.tail })
  /-- A write to A while idle (R53). -/
  | writeA (v : Word) (rest : List HostAction) (hreset : s.resetMoves = false)
      (hcompletes : s.blockCompletes = false) (hwrite : s.nextWrite = some (.a, v)) (hbusy : s.busy = false) :
      StepEvent s { s with host := rest, turns := s.turns.tail, a := v }
  /-- A write to B while idle (R53). -/
  | writeB (v : Word) (rest : List HostAction) (hreset : s.resetMoves = false)
      (hcompletes : s.blockCompletes = false) (hwrite : s.nextWrite = some (.b, v)) (hbusy : s.busy = false) :
      StepEvent s { s with host := rest, turns := s.turns.tail, b := v }
  /-- A write to M while idle (R53). -/
  | writeM (v : Word) (rest : List HostAction) (hreset : s.resetMoves = false)
      (hcompletes : s.blockCompletes = false) (hwrite : s.nextWrite = some (.m, v)) (hbusy : s.busy = false) :
      StepEvent s { s with host := rest, turns := s.turns.tail, m := v }
  /-- A write of a command to CMD while idle, M in the command's domain (R150). -/
  | acceptance (i : Instr) (v : Word) (rest : List HostAction) (hreset : s.resetMoves = false)
      (hcompletes : s.blockCompletes = false) (hwrite : s.nextWrite = some (.cmd, v)) (hbusy : s.busy = false)
      (hdecode : decodeWord v = .ok i) (hoperand : OperandOk i s.m) :
      StepEvent s (acceptCommand { s with host := rest, turns := s.turns.tail, cmd := v })
  /-- A write to CMD while idle that fails a check (R150, R164). -/
  | errorCompletion (c : ErrCause) (v : Word) (rest : List HostAction) (hreset : s.resetMoves = false)
      (hcompletes : s.blockCompletes = false) (hwrite : s.nextWrite = some (.cmd, v)) (hbusy : s.busy = false) :
      StepEvent s (raiseError c { s with host := rest, turns := s.turns.tail, cmd := v })
  /-- A write to STATUS, in either phase (R23, R53). -/
  | statusWrite (v : Word) (rest : List HostAction) (hreset : s.resetMoves = false)
      (hcompletes : s.blockCompletes = false) (hwrite : s.nextWrite = some (.status, v)) :
      StepEvent s (writeStatus v { s with host := rest, turns := s.turns.tail })

/-- The completion step comes at a busy block and is no reset. -/
theorem busy_of_blockCompletes {s : State} (h : s.blockCompletes = true) :
    s.busy = true ∧ s.resetMoves = false := by
  rw [State.blockCompletes, Bool.and_eq_true] at h
  obtain ⟨hb, ht⟩ := h
  refine ⟨hb, ?_⟩
  unfold State.resetMoves
  split
  case h_1 d ts hs => simp [hs] at ht
  case h_2 => rfl

theorem stepEvent_of_regWrite {s t : State} {r : Reg} {v : Word} {rest : List HostAction}
    (hr : s.resetMoves = false) (hc : s.blockCompletes = false) (hw : s.nextWrite = some (r, v))
    (h : regWrite r v { s with host := rest, turns := s.turns.tail } = .next t) : StepEvent s t := by
  rcases regWrite_cases r v { s with host := rest, turns := s.turns.tail } with
    ⟨hb, hm, he⟩ | ⟨hb, rfl, he⟩ | ⟨hb, rfl, he⟩ | ⟨hb, rfl, he⟩ | ⟨hb, rfl, -⟩ | ⟨rfl, he⟩ | ⟨-, he⟩
  case inr.inr.inr.inr.inl =>
    have hi : regWrite .cmd v { s with host := rest, turns := s.turns.tail } =
        issue v { s with host := rest, turns := s.turns.tail } := if_neg (by simpa using hb)
    rw [hi] at h
    rcases issue_checks (v := v) hb with ⟨i, hd, ho, he⟩ | ⟨c, he⟩ <;> cases he.symm.trans h
    · exact .acceptance i v rest hr hc hw hb hd ho
    · exact .errorCompletion c v rest hr hc hw hb
  all_goals cases he.symm.trans h
  · exact .droppedWrite r v rest hr hc hw hb (by simpa using hm)
  · exact .writeA v rest hr hc hw hb
  · exact .writeB v rest hr hc hw hb
  · exact .writeM v rest hr hc hw hb
  · exact .statusWrite v rest hr hc hw
  · exact .quiet s.rdata s.draws rest hr hc

/-- Every step that answers a next state is one of the events. -/
theorem stepEvent_of_step {s t : State} (h : step s = .next t) : StepEvent s t := by
  rcases step_cases h with ⟨d, ts, hs, hr, -, rfl⟩ | ⟨hc, i, hi, he⟩ | ⟨hr, hc, x, k, l, rfl, -⟩ |
    ⟨r, v, rest, hr, hc, hw, he⟩
  · obtain rfl : s.turns.tail = ts := by rw [hs]; rfl
    exact .reset d hr
  · obtain ⟨hb, hr⟩ := busy_of_blockCompletes hc
    rcases exec_busy (i := i) (s := { s with turns := s.turns.tail }) hb with ⟨x, y, k, hd, -⟩ | hd
    · cases hd.symm.trans he
      exact .completion i x y k hr hc hb hi hd
    · cases hd.symm.trans he
  · exact .quiet x k l hr hc
  · exact stepEvent_of_regWrite hr hc hw he

/-! ### The invariants of R31 -/

theorem errCause_code (c : ErrCause) : c.code = 1 ∨ c.code = 2 ∨ c.code = 3 := by cases c <;> decide

/-- While the block is idle the invariants speak of the error fields alone. -/
theorem invariants_of_idle {s : State} (hb : s.busy = false)
    (herr : s.err = true → s.done = true ∧ (s.errCode = 1 ∨ s.errCode = 2 ∨ s.errCode = 3))
    (hno : s.err = false → s.errCode = 0) : Invariants s where
  busyFlags h := by simp [hb] at h
  errCause := herr
  noErrNoCode := hno
  busyLegal h := by simp [hb] at h
  busyModulus h := by simp [hb] at h
  busyMrDomain h := by simp [hb] at h

/-- The invariants speak of BUSY, DONE, ERR, ERRCODE, CMD and M alone. -/
theorem Invariants.congr {s t : State} (h : Invariants s) (hbusy : t.busy = s.busy) (hdone : t.done = s.done)
    (herr : t.err = s.err) (hcode : t.errCode = s.errCode) (hcmd : t.cmd = s.cmd) (hm : t.m = s.m) :
    Invariants t where
  busyFlags := by rw [hbusy, hdone, herr, hcode]; exact h.busyFlags
  errCause := by rw [hdone, herr, hcode]; exact h.errCause
  noErrNoCode := by rw [herr, hcode]; exact h.noErrNoCode
  busyLegal := by rw [hbusy, hcmd]; exact h.busyLegal
  busyModulus := by rw [hbusy, hcmd, hm]; exact h.busyModulus
  busyMrDomain := by rw [hbusy, hcmd, hm]; exact h.busyMrDomain

theorem invariants_resetStep (d : ResetData) (s : State) : Invariants (resetStep d s) :=
  invariants_of_idle rfl (fun h => by simp at h) (fun _ => rfl)

theorem invariants_raiseError (c : ErrCause) (s : State) : Invariants (raiseError c s) :=
  invariants_of_idle rfl (fun _ => ⟨rfl, errCause_code c⟩) (fun h => by simp at h)

/-- Completion leaves the error fields, which are 0 while the block is busy (R24). -/
theorem invariants_deliver {s : State} (h : Invariants s) (hb : s.busy = true) (x : Word) (y : Acc) :
    Invariants (deliver x y s) := by
  obtain ⟨-, herr, hcode⟩ := h.busyFlags hb
  exact invariants_of_idle rfl (fun h' => by simp [herr] at h') (fun _ => hcode)

/-- The checks at issue establish what the invariants say of a busy block. -/
theorem invariants_acceptCommand {s : State} {i : Instr} (hd : decodeWord s.cmd = .ok i) (hm : OperandOk i s.m) :
    Invariants (acceptCommand s) := by
  obtain ⟨hres, hop⟩ := decodeWord_eq_ok_iff.mp hd
  exact {
    busyFlags := fun _ => ⟨rfl, rfl, rfl⟩
    errCause := fun h => by simp at h
    noErrNoCode := fun _ => rfl
    busyLegal := fun _ => ⟨hres, opcode_of_decodeOpcode hop⟩
    busyModulus := by
      rintro - (h | h) <;> rw [acceptCommand_cmd] at h <;> rw [h] at hop <;> cases hop <;> exact hm
    busyMrDomain := by
      intro _ h
      rw [acceptCommand_cmd] at h
      rw [h] at hop
      cases hop
      exact hm }

theorem StepEvent.invariants {s t : State} (e : StepEvent s t) (h : Invariants s) : Invariants t := by
  cases e with
  | reset d => exact invariants_resetStep d _
  | completion _ x y k _ _ hb =>
    have hu : Invariants { s with turns := s.turns.tail, draws := k } := h.congr rfl rfl rfl rfl rfl rfl
    exact invariants_deliver hu hb x y
  | writeM _ _ _ _ _ hb => exact invariants_of_idle hb h.errCause h.noErrNoCode
  | acceptance _ _ _ _ _ _ _ hd hm => exact invariants_acceptCommand hd hm
  | errorCompletion c => exact invariants_raiseError c _
  | statusWrite v => apply h.congr <;> simp
  | quiet | droppedWrite | writeA | writeB => exact h.congr rfl rfl rfl rfl rfl rfl

/-! ### The flags of R24

In each lemma the events that it does not name leave the flag or move it the other way. -/

section
variable {s t : State}

theorem StepEvent.flags_of_reset (e : StepEvent s t) (h : s.resetMoves = true) :
    t.busy = false ∧ t.done = false ∧ t.err = false ∧ t.ovr = false := by
  cases e with
  | reset => exact ⟨rfl, rfl, rfl, rfl⟩
  | _ => simp_all

theorem StepEvent.flags_of_completion (e : StepEvent s t) (h : s.blockCompletes = true) :
    t.busy = false ∧ t.done = true ∧ t.err = s.err ∧ t.errCode = s.errCode ∧ t.ovr = s.ovr := by
  cases e with
  | completion => exact ⟨rfl, rfl, rfl, rfl, rfl⟩
  | reset _ hr => simp [(busy_of_blockCompletes h).2] at hr
  | _ => simp_all

theorem StepEvent.busy_set (e : StepEvent s t) (h : s.busy = false) (h' : t.busy = true) :
    ∃ v, s.nextWrite = some (.cmd, v) ∧ legalWord v = true := by
  cases e with
  | acceptance _ v _ _ _ hw _ hd => exact ⟨v, hw, legalWord_of_decodeWord hd⟩
  | _ => simp [h] at h'

theorem StepEvent.busy_cleared (e : StepEvent s t) (hr : s.resetMoves = false) (h : s.busy = true)
    (h' : t.busy = false) : s.blockCompletes = true := by
  cases e with
  | completion _ _ _ _ _ hc => exact hc
  | _ => simp_all

theorem StepEvent.done_set (e : StepEvent s t) (h : s.done = false) (h' : t.done = true) :
    s.blockCompletes = true ∨ ∃ v, s.nextWrite = some (.cmd, v) ∧ s.busy = false ∧ t.err = true := by
  cases e with
  | completion _ _ _ _ _ hc => exact .inl hc
  | errorCompletion _ v _ _ _ hw hb => exact .inr ⟨v, hw, hb, rfl⟩
  | _ => simp [h] at h'

theorem StepEvent.done_cleared (e : StepEvent s t) (hr : s.resetMoves = false) (h : s.done = true)
    (h' : t.done = false) : ∃ v, s.nextWrite = some (.cmd, v) ∧ s.busy = false ∧ t.busy = true := by
  cases e with
  | acceptance _ v _ _ _ hw hb => exact ⟨v, hw, hb, rfl⟩
  | _ => simp_all

theorem StepEvent.err_set (e : StepEvent s t) (h : s.err = false) (h' : t.err = true) :
    ∃ v, s.nextWrite = some (.cmd, v) ∧ s.busy = false ∧ t.busy = false ∧ t.done = true ∧
      (t.errCode = 1 ∨ t.errCode = 2 ∨ t.errCode = 3) := by
  cases e with
  | errorCompletion c v _ _ _ hw hb => exact ⟨v, hw, hb, rfl, rfl, errCause_code c⟩
  | _ => simp [h] at h'

theorem StepEvent.err_cleared (e : StepEvent s t) (hr : s.resetMoves = false) (h : s.err = true)
    (h' : t.err = false) :
    ∃ v, s.nextWrite = some (.cmd, v) ∧ s.busy = false ∧ t.busy = true ∧ t.errCode = 0 := by
  cases e with
  | acceptance _ v _ _ _ hw hb => exact ⟨v, hw, hb, rfl, rfl⟩
  | _ => simp_all

theorem StepEvent.ovr_set (e : StepEvent s t) (h : s.ovr = false) (h' : t.ovr = true) :
    s.busy = true ∧ ∃ r v, s.nextWrite = some (r, v) ∧ (r = .a ∨ r = .b ∨ r = .m ∨ r = .cmd) := by
  cases e with
  | droppedWrite r v _ _ _ hw hb hreg => exact ⟨hb, r, v, hw, hreg⟩
  | _ => simp [h] at h'

theorem StepEvent.ovr_cleared (e : StepEvent s t) (hr : s.resetMoves = false) (h : s.ovr = true)
    (h' : t.ovr = false) : ∃ v, s.nextWrite = some (.status, v) ∧ v.getLsbD 3 = true := by
  cases e with
  | statusWrite v _ _ _ hw =>
    have hbit : clearsOvr v = true := by simpa [h] using h'
    exact ⟨v, hw, hbit⟩
  | _ => simp_all

end

end Sys2Proof.Machine

open Sys2Proof.Machine

/-- Settles O37: each event of a step keeps the invariants. -/
theorem stepKeepsTheInvariants : Obligations.StepKeepsTheInvariants :=
  fun _ _ hinv h => (stepEvent_of_step h).invariants hinv

/-- Settles O43, clause by clause of the table. -/
theorem flagsChangeOnlyAsTheTableSays : Obligations.FlagsChangeOnlyAsTheTableSays := by
  intro s t h
  have e := stepEvent_of_step h
  refine ⟨e.flags_of_reset, fun hc => ?_, fun hr => ⟨e.busy_set, e.busy_cleared hr, e.done_set, e.done_cleared hr,
    e.err_set, e.err_cleared hr, e.ovr_set, e.ovr_cleared hr⟩⟩
  obtain ⟨hbusy, hdone, herr, hcode, hovr⟩ := e.flags_of_completion hc
  refine ⟨hbusy, hdone, herr, hcode, hovr, fun hinv => ?_⟩
  obtain ⟨-, herr', hcode'⟩ := hinv.busyFlags (busy_of_blockCompletes hc).1
  exact ⟨herr.trans herr', hcode.trans hcode'⟩

end

section
/-! PROOFS. The family of 20_memory.md: what a host access reads and writes (R52, R53), the mapped view (R51), and that
nothing but reset alters a command in progress (R62). -/

namespace Sys2Proof.Machine

/-! ### The host's accesses as steps -/

section
variable {s : State} {r : Reg} {v : Word} {rest : List HostAction}

theorem step_of_rd (hm : s.hostMoves = true) (hh : s.host = .rd r :: rest) :
    step s = .next (regRead r { s with host := rest, turns := s.turns.tail }) := by
  rw [step_of_hostMoves hm]
  simp only [hostTurn, hh]

theorem step_of_wr (hm : s.hostMoves = true) (hh : s.host = .wr r v :: rest) :
    step s = regWrite r v { s with host := rest, turns := s.turns.tail } := by
  rw [step_of_hostMoves hm]
  simp only [hostTurn, hh]

theorem step_of_memRead {addr len : Nat} (hm : s.hostMoves = true) (hh : s.host = .memRead addr len :: rest)
    (ht : targetOf addr len = .register r) :
    step s = .next (regRead r { s with host := rest, turns := s.turns.tail }) := by
  rw [step_of_hostMoves hm]
  simp only [hostTurn, hh, ht]

theorem step_of_memWrite {addr len : Nat} (hm : s.hostMoves = true) (hh : s.host = .memWrite addr len v :: rest)
    (ht : targetOf addr len = .register r) :
    step s = regWrite r v { s with host := rest, turns := s.turns.tail } := by
  rw [step_of_hostMoves hm]
  simp only [hostTurn, hh, ht]

end

/-! ### The mapped view -/

theorem wholeRegister_address (r : Reg) : wholeRegister Config.base r.address 8 = true := by
  have hi : (r.index : Nat) < 8 := r.index.isLt
  simp only [wholeRegister, Bool.and_eq_true, decide_eq_true_eq, and_true]
  unfold Reg.address
  omega

/-- The 8-byte transfer at a register's address is that register's (R51). -/
theorem targetOf_address (r : Reg) : targetOf r.address 8 = .register r := by
  have hidx : Fin.ofNat 8 ((r.address - Config.base) / 8) = r.index := by
    rw [Reg.address, Nat.add_sub_cancel_left, Nat.mul_div_cancel_left _ (by decide), Fin.ofNat_val_eq_self]
  rw [targetOf, if_pos (wholeRegister_address r), hidx, Reg.ofIndex_index]

/-! ### Writes, by register and phase -/

section
variable {s : State} {r : Reg} {v : Word}

/-- While busy a write to index 0 to 3 is dropped (R53, R162). -/
theorem regWrite_of_busy (hb : s.busy = true) (hr : r = .a ∨ r = .b ∨ r = .m ∨ r = .cmd) :
    regWrite r v s = .next (flagOverrun s) := by
  rcases hr with rfl | rfl | rfl | rfl <;> simp [regWrite, hb]

theorem regWrite_a_of_idle (hb : s.busy = false) : regWrite .a v s = .next { s with a := v } := by
  simp [regWrite, hb]

theorem regWrite_b_of_idle (hb : s.busy = false) : regWrite .b v s = .next { s with b := v } := by
  simp [regWrite, hb]

theorem regWrite_m_of_idle (hb : s.busy = false) : regWrite .m v s = .next { s with m := v } := by
  simp [regWrite, hb]

theorem regWrite_cmd_of_idle (hb : s.busy = false) : regWrite .cmd v s = issue v s := by
  simp [regWrite, hb]

theorem regWrite_readOnly (hr : r = .result ∨ r = .accLo ∨ r = .accHi) : regWrite r v s = .next s := by
  rcases hr with rfl | rfl | rfl <;> rfl

/-- A write to STATUS as one update of OVR (R23). -/
theorem writeStatus_eq (v : Word) (s : State) :
    writeStatus v s = { s with ovr := s.ovr && !v.getLsbD 3 } := by
  unfold writeStatus clearsOvr
  cases v.getLsbD 3 <;> simp

end

/-! ### A command in progress -/

section
variable {s t : State}

/-- Neither the host nor the completion writes an operand, CMD or an error field of a busy block. -/
theorem StepEvent.operands_of_busy (e : StepEvent s t) (hb : s.busy = true) (hr : s.resetMoves = false) :
    t.a = s.a ∧ t.b = s.b ∧ t.m = s.m ∧ t.cmd = s.cmd ∧ t.err = s.err ∧ t.errCode = s.errCode := by
  cases e with
  | reset _ hreset => simp [hr] at hreset
  | completion | quiet | droppedWrite => exact ⟨rfl, rfl, rfl, rfl, rfl, rfl⟩
  | statusWrite => simp
  | writeA _ _ _ _ _ hidle | writeB _ _ _ _ _ hidle | writeM _ _ _ _ _ hidle | acceptance _ _ _ _ _ _ hidle
  | errorCompletion _ _ _ _ _ _ hidle => simp [hb] at hidle

/-- A step that leaves the block busy is no completion, and no other writes RESULT, ACC or DONE of a busy block. -/
theorem StepEvent.results_of_busy (e : StepEvent s t) (hb : s.busy = true) (hb' : t.busy = true) :
    t.result = s.result ∧ t.acc = s.acc ∧ t.done = s.done := by
  cases e with
  | reset | completion | errorCompletion => simp at hb'
  | quiet | droppedWrite => exact ⟨rfl, rfl, rfl⟩
  | statusWrite => simp
  | writeA _ _ _ _ _ hidle | writeB _ _ _ _ _ hidle | writeM _ _ _ _ _ hidle
  | acceptance _ _ _ _ _ _ hidle => simp [hb] at hidle

end

end Sys2Proof.Machine

open Sys2Proof Sys2Proof.Machine

/-- Settles O28: the step is `regRead`, whose value is the stored one unless the read is a draw. -/
theorem hostReadReturnsTheRegister : Obligations.HostReadReturnsTheRegister := by
  intro s r rest hm hh
  obtain ⟨x, k, hread, -, hx⟩ := regRead_spec r { s with host := rest, turns := s.turns.tail }
  have always (hr : r.drawnWhileBusy = false) := (hx (.inr hr)).1
  have idle (hb : s.busy = false) := (hx (.inl hb)).1
  refine ⟨x, k, by rw [step_of_rd hm hh, hread], ?_, ?_, ?_, ?_, ?_, ?_, ?_, ?_⟩
  case refine_1 | refine_2 | refine_3 | refine_4 | refine_5 => rintro rfl; exact always rfl
  all_goals rintro hb rfl; exact idle hb

/-- Settles O29: the step is `regWrite`, taken register by register and phase by phase. -/
theorem hostWriteFollowsTheCases : Obligations.HostWriteFollowsTheCases := by
  intro s r v rest hm hh
  rw [step_of_wr hm hh]
  refine ⟨fun hb hr => regWrite_of_busy hb hr, ?_, ?_, ?_, ?_, ?_, regWrite_readOnly⟩
  · rintro hb rfl; exact regWrite_a_of_idle hb
  · rintro hb rfl; exact regWrite_b_of_idle hb
  · rintro hb rfl; exact regWrite_m_of_idle hb
  · rintro hb rfl; exact regWrite_cmd_of_idle hb
  · rintro rfl; rw [regWrite, writeStatus_eq]

/-- Settles O31: both transfers aim at the register, so each step is that register's access. -/
theorem windowMapsTheRegisters : Obligations.WindowMapsTheRegisters := by
  refine ⟨Nat.mul_mod_right 64 _, fun s r v rest hm => ?_⟩
  have hmoves (l : List HostAction) : State.hostMoves { s with host := l } = true := hm
  constructor
  · exact (step_of_memRead (hmoves _) rfl (targetOf_address r)).trans (step_of_rd (hmoves _) rfl).symm
  · exact (step_of_memWrite (hmoves _) rfl (targetOf_address r)).trans (step_of_wr (hmoves _) rfl).symm

/-- Settles O39, event by event. -/
theorem commandInProgressIsUndisturbed : Obligations.CommandInProgressIsUndisturbed := by
  intro s t hb hr h
  have e := stepEvent_of_step h
  obtain ⟨ha, hB, hm, hcmd, herr, hcode⟩ := e.operands_of_busy hb hr
  exact ⟨ha, hB, hm, hcmd, herr, hcode, e.results_of_busy hb⟩

end

section
/-! PROOFS. The family of 30_encoding.md: the decoder is the pseudocode of R77. A word that is a command is told by
`decodeWord_eq_ok_iff`; the lemmas here name the cause for each of the others. -/

namespace Sys2Proof.Machine

theorem decodeWord_of_reservedField_ne_zero {v : Word} (hr : reservedField v ≠ 0) :
    decodeWord v = .error .reservedBits := if_pos hr

theorem decodeOpcode_eq_none {op : BitVec 8} (h : op ∉ [0x01, 0x02, 0x03, 0x04]) : decodeOpcode op = none := by
  refine Option.eq_none_iff_forall_ne_some.mpr fun i hi => h ?_
  simpa using opcode_of_decodeOpcode hi

theorem decodeWord_of_unassigned {v : Word} (hr : reservedField v = 0)
    (ho : opcodeField v ∉ [0x01, 0x02, 0x03, 0x04]) : decodeWord v = .error .unassignedOpcode := by
  rw [decodeWord, if_neg (not_not.mpr hr), decodeOpcode_eq_none ho]

end Sys2Proof.Machine

open Sys2Proof Sys2Proof.Machine

/-- Settles O1: the reserved bits first, then the opcode, as R77 has it. -/
theorem decodeIsTheTotalOpcodeMap : Obligations.DecodeIsTheTotalOpcodeMap := by
  refine fun v => ⟨fun hr => ⟨_, decodeWord_of_reservedField_ne_zero hr⟩, fun hr => ?_⟩
  have command {i : Instr} (hop : decodeOpcode (opcodeField v) = some i) : decodeWord v = .ok i :=
    decodeWord_eq_ok_iff.mpr ⟨hr, hop⟩
  refine ⟨?mulmod, ?powmod, ?mrtest, ?isprime, fun ho => ⟨_, decodeWord_of_unassigned hr ho⟩⟩
  case mulmod | powmod | mrtest | isprime => exact fun ho => command ((congrArg decodeOpcode ho).trans rfl)

end

section
/-! PROOFS. The family of 40_mulmod.md: the value of `mulmod` with the properties that R93 derives from it, and the
command MULMOD (R94). Every property is read off `mulmod_toNat`, the value on naturals. -/

namespace Sys2Proof.Machine

/-! ### The function `mulmod` -/

section
variable (a b : Word) (m : Modulus)

theorem mulmod_toNat : (mulmod a b m).toNat = a.toNat * b.toNat % m.val.toNat := by
  rw [mulmod, rem_toNat, wmul_toNat]

theorem mulmod_comm : mulmod a b m = mulmod b a m := by
  apply BitVec.eq_of_toNat_eq
  rw [mulmod_toNat, mulmod_toNat, Nat.mul_comm]

theorem mulmod_modulus_one (h : ModulusOk 1) : mulmod a b ⟨1, h⟩ = 0 := by
  apply BitVec.eq_of_toNat_eq
  rw [mulmod_toNat]
  exact Nat.mod_one _

theorem mulmod_zero_left : mulmod 0 b m = 0 := by
  apply BitVec.eq_of_toNat_eq
  rw [mulmod_toNat]
  simp

theorem mulmod_zero_right : mulmod a 0 m = 0 := by rw [mulmod_comm, mulmod_zero_left]

theorem mulmod_one_right_toNat : (mulmod a 1 m).toNat = a.toNat % m.val.toNat := by
  rw [mulmod_toNat]
  exact congrArg (· % m.val.toNat) (Nat.mul_one _)

theorem mulmod_umod_umod : mulmod (a % m.val) (b % m.val) m = mulmod a b m := by
  apply BitVec.eq_of_toNat_eq
  rw [mulmod_toNat, mulmod_toNat, BitVec.toNat_umod, BitVec.toNat_umod, ← Nat.mul_mod]

variable {a b m} in
theorem mulmod_toNat_of_lt (h : a.toNat * b.toNat < m.val.toNat) : (mulmod a b m).toNat = a.toNat * b.toNat := by
  rw [mulmod_toNat, Nat.mod_eq_of_lt h]

end

/-! ### The words that the completion of MULMOD delivers -/

theorem wmul_eq_ofNat (a b : Word) : wmul a b = BitVec.ofNat 128 (a.toNat * b.toNat) := by
  rw [← wmul_toNat, BitVec.ofNat_toNat, BitVec.setWidth_eq]

theorem mulmod_eq_ofNat (a b : Word) (m : Modulus) :
    mulmod a b m = BitVec.ofNat 64 (a.toNat * b.toNat % m.val.toNat) := by
  rw [← mulmod_toNat, BitVec.ofNat_toNat, BitVec.setWidth_eq]

/-! ### The command, by phase -/

section
variable {i : Instr} {s : State}

/-- The check that MULMOD and POWMOD share: an idle block ends with ZERO_MODULUS when `M = 0` (R161). -/
theorem exec_of_idle_of_zero_modulus (hi : i = .mulmod ∨ i = .powmod) (hb : s.busy = false) (hm : s.m = 0) :
    exec i s = .next (raiseError .zeroModulus s) := by
  rcases hi with rfl | rfl <;> simp only [exec, execMulmod, execPowmod, hb, modulusOperand_none hm]

/-- An idle block accepts every command whose operand check M meets (R150). -/
theorem exec_of_idle_of_operandOk (hb : s.busy = false) (hm : OperandOk i s.m) :
    exec i s = .next (acceptCommand s) := by
  rcases exec_idle_checks (i := i) hb with ⟨-, haccept⟩ | ⟨hbad, -⟩
  · exact haccept
  · exact absurd hm hbad

/-- The completion of MULMOD: the exact product into ACC, its residue into RESULT (R94). -/
theorem exec_mulmod_of_busy (hb : s.busy = true) (hm : s.m ≠ 0) :
    exec .mulmod s = .next (deliver (mulmod s.a s.b ⟨s.m, hm⟩) (wmul s.a s.b) s) := by
  simp only [exec, execMulmod, hb, modulusOperand_some hm, mulmod]

end

end Sys2Proof.Machine

open Sys2Proof Sys2Proof.Machine

/-- Settles O5, property by property of R93. -/
theorem mulmodIsTheExactResidue : Obligations.MulmodIsTheExactResidue := fun a b m =>
  ⟨rfl, mulmod_toNat a b m, mulmod_comm a b m, mulmod_modulus_one a b _, mulmod_zero_left b m, mulmod_zero_right a m,
    mulmod_one_right_toNat a m, (mulmod_umod_umod a b m).symm, mulmod_toNat_of_lt⟩

/-- Settles O18: the check at issue, the acceptance, and the completion with the product and its residue as numbers. -/
theorem mulmodCommand : Obligations.MulmodCommand := by
  refine ⟨rfl, fun s => ⟨fun hb hm => ?zeroModulus, fun hb hm => ?acceptance, fun hb hm => ?completion⟩⟩
  case zeroModulus => exact exec_of_idle_of_zero_modulus (.inl rfl) hb hm
  case acceptance => exact exec_of_idle_of_operandOk (i := .mulmod) hb hm
  case completion =>
    rw [exec_mulmod_of_busy hb hm, wmul_eq_ofNat, mulmod_eq_ofNat]
    rfl

end

section
/-! PROOFS. The family of 41_powmod.md: the square-and-multiply loop computes the modular power (R111), its corner
cases (R112, R113), and the command POWMOD (R114). Every corner case is read off `powmod_toNat`. -/

namespace Sys2Proof.Machine

/-! ### The loop of R110 -/

theorem mulmod_modEq (a b : Word) (m : Modulus) : (mulmod a b m).toNat ≡ a.toNat * b.toNat [MOD m.val.toNat] := by
  rw [mulmod_toNat]
  exact Nat.mod_modEq _ _

theorem mulmod_lt (a b : Word) (m : Modulus) : (mulmod a b m).toNat < m.val.toNat := by
  rw [mulmod_toNat]
  exact Nat.mod_lt _ (modulus_pos m)

theorem getLsbD_zero_iff (e : Word) : e.getLsbD 0 = true ↔ e.toNat % 2 = 1 := by
  rw [← BitVec.testBit_toNat, Nat.testBit_zero, decide_eq_true_eq]

/-- The conditional multiplication of R110 multiplies by `base ^ (e mod 2)`. -/
theorem mulStep_modEq (m : Modulus) (res base e : Word) :
    (if e.getLsbD 0 then mulmod res base m else res).toNat ≡
      res.toNat * base.toNat ^ (e.toNat % 2) [MOD m.val.toNat] := by
  by_cases hbit : e.getLsbD 0 = true
  · rw [if_pos hbit, (getLsbD_zero_iff e).mp hbit, pow_one]
    exact mulmod_modEq res base m
  · have hzero : e.toNat % 2 = 0 := Nat.mod_two_ne_one.mp (mt (getLsbD_zero_iff e).mpr hbit)
    rw [if_neg hbit, hzero, pow_zero, mul_one]

/-- The loop's invariant: `res * base ^ e` keeps its residue, so long as there is fuel for every bit of `e`. -/
theorem powmodLoop_modEq (m : Modulus) (fuel : Nat) (res base e : Word) (he : e.toNat < 2 ^ fuel) :
    (powmodLoop m fuel res base e).toNat ≡ res.toNat * base.toNat ^ e.toNat [MOD m.val.toNat] := by
  induction fuel generalizing res base e with
  | zero =>
    have hzero : e.toNat = 0 := Nat.lt_one_iff.mp he
    rw [powmodLoop, hzero, pow_zero, mul_one]
  | succ fuel ih =>
    rw [powmodLoop]
    split
    case isTrue hzero => simp [hzero, Nat.ModEq.refl]
    case isFalse =>
      have hhalf : (e >>> 1).toNat = e.toNat / 2 := by
        rw [BitVec.toNat_ushiftRight, Nat.shiftRight_one]
      have hfuel : (e >>> 1).toNat < 2 ^ fuel := by omega
      refine (ih _ _ _ hfuel).trans ?_
      rw [hhalf]
      calc _ ≡ res.toNat * base.toNat ^ (e.toNat % 2) * (base.toNat * base.toNat) ^ (e.toNat / 2) [MOD m.val.toNat] :=
            (mulStep_modEq m res base e).mul ((mulmod_modEq base base m).pow _)
        _ = res.toNat * base.toNat ^ (e.toNat % 2 + 2 * (e.toNat / 2)) := by
            rw [← pow_two, ← pow_mul, mul_assoc, ← pow_add]
        _ = res.toNat * base.toNat ^ e.toNat := by rw [Nat.mod_add_div]

theorem powmodLoop_lt (m : Modulus) (fuel : Nat) (res base e : Word) (hres : res.toNat < m.val.toNat) :
    (powmodLoop m fuel res base e).toNat < m.val.toNat := by
  induction fuel generalizing res base e with
  | zero => exact hres
  | succ fuel ih =>
    rw [powmodLoop]
    split
    case isTrue => exact hres
    case isFalse =>
      apply ih
      split
      case isTrue => exact mulmod_lt res base m
      case isFalse => exact hres

/-! ### The function `powmod` -/

section
variable (a b : Word) (m : Modulus)

theorem reduce_modEq : (reduce a m).toNat ≡ a.toNat [MOD m.val.toNat] := by
  rw [reduce_toNat]
  exact Nat.mod_modEq _ _

theorem powmod_lt : (powmod a b m).toNat < m.val.toNat :=
  powmodLoop_lt m 64 _ _ b (by rw [reduce_toNat]; exact Nat.mod_lt _ (modulus_pos m))

theorem powmod_toNat : (powmod a b m).toNat = a.toNat ^ b.toNat % m.val.toNat := by
  have hmod : (powmod a b m).toNat ≡ a.toNat ^ b.toNat [MOD m.val.toNat] :=
    calc (powmod a b m).toNat ≡ (reduce 1 m).toNat * (reduce a m).toNat ^ b.toNat [MOD m.val.toNat] :=
          powmodLoop_modEq m 64 _ _ b b.isLt
      _ ≡ 1 * a.toNat ^ b.toNat [MOD m.val.toNat] := (reduce_modEq 1 m).mul ((reduce_modEq a m).pow _)
      _ = a.toNat ^ b.toNat := one_mul _
  exact (Nat.mod_eq_of_modEq hmod.symm (powmod_lt a b m)).symm

/-- Only the residue of the base counts. -/
theorem powmod_toNat_eq_residue_pow : (powmod a b m).toNat = (a.toNat % m.val.toNat) ^ b.toNat % m.val.toNat := by
  rw [powmod_toNat, Nat.pow_mod]

theorem powmod_modulus_one (h : ModulusOk 1) : powmod a b ⟨1, h⟩ = 0 := by
  apply BitVec.eq_of_toNat_eq
  rw [powmod_toNat]
  exact Nat.mod_one _

theorem powmod_one_right_toNat : (powmod a 1 m).toNat = a.toNat % m.val.toNat := by
  rw [powmod_toNat]
  exact congrArg (· % m.val.toNat) (pow_one _)

theorem powmod_umod : powmod (a % m.val) b m = powmod a b m := by
  apply BitVec.eq_of_toNat_eq
  rw [powmod_toNat, powmod_toNat_eq_residue_pow a, BitVec.toNat_umod]

theorem powmod_eq_ofNat : powmod a b m = BitVec.ofNat 64 (a.toNat ^ b.toNat % m.val.toNat) := by
  rw [← powmod_toNat, BitVec.ofNat_toNat, BitVec.setWidth_eq]

end

section
variable {a b : Word} {m : Modulus}

/-- `0 ^ 0` included (R112). -/
theorem powmod_zero_right (hm : 1 < m.val.toNat) : powmod a 0 m = 1 := by
  apply BitVec.eq_of_toNat_eq
  rw [powmod_toNat]
  exact Nat.mod_eq_of_lt hm

theorem powmod_of_residue_zero (ha : a.toNat % m.val.toNat = 0) (hb : 1 ≤ b.toNat) : powmod a b m = 0 := by
  apply BitVec.eq_of_toNat_eq
  rw [powmod_toNat_eq_residue_pow, ha, zero_pow (Nat.ne_of_gt hb)]
  exact Nat.zero_mod _

theorem powmod_of_residue_one (ha : a.toNat % m.val.toNat = 1) (hm : 1 < m.val.toNat) : powmod a b m = 1 := by
  apply BitVec.eq_of_toNat_eq
  rw [powmod_toNat_eq_residue_pow, ha, one_pow]
  exact Nat.mod_eq_of_lt hm

end

/-- The completion of POWMOD: the power into RESULT, the next free value into ACC (R114). -/
theorem exec_powmod_of_busy {s : State} (hb : s.busy = true) (hm : s.m ≠ 0) :
    exec .powmod s = .next (deliverDrawn (powmod s.a s.b ⟨s.m, hm⟩) s) := by
  simp only [exec, execPowmod, hb, modulusOperand_some hm]

end Sys2Proof.Machine

open Sys2Proof Sys2Proof.Machine

/-- Settles O7, by the loop's invariant. -/
theorem powmodIsTheModularPower : Obligations.PowmodIsTheModularPower := fun a b m =>
  ⟨powmod_toNat a b m, powmod_lt a b m⟩

/-- Settles O8, case by case of R112 and R113. -/
theorem powmodCornerCases : Obligations.PowmodCornerCases := fun a b m =>
  ⟨powmod_modulus_one a b _, powmod_zero_right, powmod_of_residue_zero, powmod_of_residue_one,
    powmod_one_right_toNat a m, fun _ => (powmod_umod a b m).symm⟩

/-- Settles O19: the check at issue, the acceptance, and the completion with the modular power as a number. -/
theorem powmodCommand : Obligations.PowmodCommand := by
  refine ⟨rfl, fun s => ⟨fun hb hm => ?zeroModulus, fun hb hm => ?acceptance, fun hb hm => ?completion⟩⟩
  case zeroModulus => exact exec_of_idle_of_zero_modulus (.inr rfl) hb hm
  case acceptance => exact exec_of_idle_of_operandOk (i := .powmod) hb hm
  case completion =>
    rw [exec_powmod_of_busy hb hm, powmod_eq_ofNat]
    rfl

end

section
/-! PROOFS. The family of 42_primality.md: decomposition (R135), the test of one base (R136), the seven bases (R137),
trial division (R139), the predicate (R140, R141) and the commands MRTEST and ISPRIME (R142, R143). Each function of
the unit gets its meaning on natural numbers; the obligations are read off these. -/

/-! ### A number of the Miller-Rabin domain -/

namespace Sys2Proof.MrNumber

variable (n : MrNumber)

theorem three_le : 3 ≤ n.val.toNat := n.ok.1

theorem odd : n.val.toNat % 2 = 1 := (Machine.getLsbD_zero_iff n.val).mp n.ok.2

theorem toNat_sub_one : (n.val - 1).toNat = n.val.toNat - 1 :=
  BitVec.toNat_sub_of_le (Nat.le_trans (m := 3) (by decide) n.three_le)

theorem eq_sub_one_iff (x : Word) : x = n.val - 1 ↔ x.toNat = n.val.toNat - 1 := by
  rw [← n.toNat_sub_one, BitVec.toNat_inj]

end Sys2Proof.MrNumber

namespace Sys2Proof.Machine

theorem reduce_eq_zero_iff (x : Word) (m : Modulus) : reduce x m = 0 ↔ m.val.toNat ∣ x.toNat := by
  rw [← BitVec.toNat_inj, reduce_toNat]
  exact Nat.dvd_iff_mod_eq_zero.symm

/-! ### Decomposition (R135) -/

theorem ushiftRight_one_toNat (d : Word) : (d >>> 1).toNat = d.toNat / 2 := by
  rw [BitVec.toNat_ushiftRight, Nat.shiftRight_one]

/-- The loop's invariant: a shift of an even `d` is paid for by the count. -/
theorem stripTwos_mul_two_pow (fuel : Nat) (d : Word) (s : Nat) :
    (stripTwos fuel d s).1.toNat * 2 ^ (stripTwos fuel d s).2 = d.toNat * 2 ^ s := by
  induction fuel generalizing d s with
  | zero => rfl
  | succ fuel ih =>
    rw [stripTwos]
    split
    case isTrue => rfl
    case isFalse hbit =>
      have heven : 2 ∣ d.toNat := by have := mt (getLsbD_zero_iff d).mpr hbit; omega
      rw [ih, ushiftRight_one_toNat, pow_succ', ← mul_assoc, Nat.div_mul_cancel heven]

/-- With fuel for every bit of a non-zero `d`, the loop ends at an odd number. -/
theorem stripTwos_odd (fuel : Nat) (d : Word) (s : Nat) (hpos : 0 < d.toNat) (hd : d.toNat < 2 ^ fuel) :
    (stripTwos fuel d s).1.toNat % 2 = 1 := by
  induction fuel generalizing d s with
  | zero => omega
  | succ fuel ih =>
    rw [stripTwos]
    split
    case isTrue hbit => exact (getLsbD_zero_iff d).mp hbit
    case isFalse hbit =>
      have hodd := mt (getLsbD_zero_iff d).mpr hbit
      have hhalf := ushiftRight_one_toNat d
      exact ih _ _ (by omega) (by omega)

section
variable (n : MrNumber)

theorem decompose_mul_two_pow : n.val.toNat - 1 = (decompose n).1.toNat * 2 ^ (decompose n).2 := by
  rw [decompose, stripTwos_mul_two_pow, pow_zero, mul_one, n.toNat_sub_one]

theorem decompose_odd : (decompose n).1.toNat % 2 = 1 := by
  have h3 := n.three_le
  have hsub := n.toNat_sub_one
  exact stripTwos_odd 64 _ 0 (by omega) (n.val - 1).isLt

theorem one_le_decompose_snd : 1 ≤ (decompose n).2 := by
  refine Nat.one_le_iff_ne_zero.mpr fun hzero => ?_
  have hmul := decompose_mul_two_pow n
  rw [hzero, pow_zero, mul_one] at hmul
  have hd := decompose_odd n
  have hn := n.odd
  omega

theorem one_le_decompose_fst : 1 ≤ (decompose n).1.toNat := by
  have hd := decompose_odd n
  omega

theorem decompose_snd_le : (decompose n).2 ≤ 63 := by
  have hlt : 2 ^ (decompose n).2 < 2 ^ 64 :=
    calc 2 ^ (decompose n).2 ≤ (decompose n).1.toNat * 2 ^ (decompose n).2 :=
          Nat.le_mul_of_pos_left _ (one_le_decompose_fst n)
      _ = n.val.toNat - 1 := (decompose_mul_two_pow n).symm
      _ < 2 ^ 64 := lt_of_le_of_lt (Nat.sub_le _ _) n.val.isLt
  exact Nat.lt_succ_iff.mp ((Nat.pow_lt_pow_iff_right (by decide)).mp hlt)

theorem decompose_fst_le : (decompose n).1.toNat ≤ (n.val.toNat - 1) / 2 := by
  rw [Nat.le_div_iff_mul_le Nat.two_pos, decompose_mul_two_pow n]
  exact Nat.mul_le_mul_left _ (Nat.le_self_pow (Nat.one_le_iff_ne_zero.mp (one_le_decompose_snd n)) 2)

end

/-- There is one way to write a number as an odd part times a power of two. -/
theorem odd_mul_two_pow_inj {d e s t : Nat} (hd : d % 2 = 1) (he : e % 2 = 1) (h : d * 2 ^ s = e * 2 ^ t) :
    d = e ∧ s = t := by
  have le {d e s t : Nat} (he : e % 2 = 1) (h : d * 2 ^ s = e * 2 ^ t) : s ≤ t := by
    have hcop : Nat.Coprime (2 ^ s) e := (Nat.coprime_two_left.mpr (Nat.odd_iff.mpr he)).pow_left s
    exact Nat.pow_dvd_pow_iff_le_right'.mp (hcop.dvd_of_dvd_mul_left (h ▸ Nat.dvd_mul_left _ d))
  have hst : s = t := le_antisymm (le he h) (le hd h.symm)
  subst hst
  exact ⟨Nat.eq_of_mul_eq_mul_right (Nat.two_pow_pos s) h, rfl⟩

/-! ### One base (R136) -/

/-- The squarings reach `n - 1` exactly when the power `2 ^ r` of `x` does, for some `r` from 1 to their number. -/
theorem squaresReachMinusOne_iff (n : MrNumber) (k : Nat) (x : Word) :
    squaresReachMinusOne n k x = true ↔
      ∃ r, 1 ≤ r ∧ r ≤ k ∧ x.toNat ^ 2 ^ r % n.val.toNat = n.val.toNat - 1 := by
  induction k generalizing x with
  | zero =>
    rw [squaresReachMinusOne]
    exact iff_of_false nofun fun ⟨r, h1, h0, _⟩ => by omega
  | succ k ih =>
    have hsquare (r : Nat) :
        (mulmod x x n.modulus).toNat ^ 2 ^ r % n.val.toNat = x.toNat ^ 2 ^ (r + 1) % n.val.toNat := by
      rw [mulmod_toNat, MrNumber.modulus, ← Nat.pow_mod, ← pow_two, ← pow_mul, ← pow_succ']
    have hfirst : mulmod x x n.modulus = n.val - 1 ↔ x.toNat ^ 2 ^ 1 % n.val.toNat = n.val.toNat - 1 := by
      rw [n.eq_sub_one_iff, mulmod_toNat, MrNumber.modulus, pow_one, pow_two]
    rw [squaresReachMinusOne]
    split
    case isTrue h => exact iff_of_true rfl ⟨1, le_rfl, by omega, hfirst.mp h⟩
    case isFalse h =>
      rw [ih]
      constructor
      · rintro ⟨r, -, hr, hpow⟩
        exact ⟨r + 1, by omega, by omega, hsquare r ▸ hpow⟩
      · rintro ⟨r, h1, hr, hpow⟩
        obtain ⟨q, rfl⟩ := Nat.exists_eq_add_of_le' h1
        have hq : q ≠ 0 := by rintro rfl; exact h (hfirst.mpr hpow)
        exact ⟨q, by omega, by omega, (hsquare q).trans hpow⟩

theorem residuePasses_iff (n : MrNumber) (s : Nat) (x : Word) :
    residuePasses n s x = true ↔
      x.toNat = 1 ∨ x.toNat = n.val.toNat - 1 ∨
        ∃ r, 1 ≤ r ∧ r ≤ s - 1 ∧ x.toNat ^ 2 ^ r % n.val.toNat = n.val.toNat - 1 := by
  have hone : x = 1 ↔ x.toNat = 1 := BitVec.toNat_inj.symm
  rw [residuePasses, ← squaresReachMinusOne_iff, ← hone, ← n.eq_sub_one_iff, ← or_assoc]
  split
  case isTrue h => exact iff_of_true rfl (.inl h)
  case isFalse h => exact (or_iff_right h).symm

/-- The test of one base as a statement about powers of the base. -/
theorem witnessPass_iff (a : Word) (n : MrNumber) (d : Word) (s : Nat) :
    witnessPass a n d s = true ↔
      a.toNat % n.val.toNat = 0 ∨
      a.toNat ^ d.toNat % n.val.toNat = 1 ∨
      a.toNat ^ d.toNat % n.val.toNat = n.val.toNat - 1 ∨
      ∃ r, 1 ≤ r ∧ r ≤ s - 1 ∧ a.toNat ^ (d.toNat * 2 ^ r) % n.val.toNat = n.val.toNat - 1 := by
  have hskip : reduce a n.modulus = 0 ↔ a.toNat % n.val.toNat = 0 :=
    (reduce_eq_zero_iff a n.modulus).trans Nat.dvd_iff_mod_eq_zero
  have htest : residuePasses n s (powmod a d n.modulus) = true ↔
      a.toNat ^ d.toNat % n.val.toNat = 1 ∨ a.toNat ^ d.toNat % n.val.toNat = n.val.toNat - 1 ∨
        ∃ r, 1 ≤ r ∧ r ≤ s - 1 ∧ a.toNat ^ (d.toNat * 2 ^ r) % n.val.toNat = n.val.toNat - 1 := by
    simp only [residuePasses_iff, powmod_toNat, MrNumber.modulus, ← Nat.pow_mod, ← pow_mul]
  rw [witnessPass, ← htest, ← hskip]
  split
  case isTrue h => exact iff_of_true rfl (.inl h)
  case isFalse h => exact (or_iff_right h).symm

/-! ### The seven bases (R137) -/

/-- `StrongProbablePrime` speaks of any decomposition of `n - 1`; there is only the one that `decompose` returns. -/
theorem strongProbablePrime_iff_decompose (n : MrNumber) (a : Nat) :
    StrongProbablePrime n.val.toNat a ↔
      n.val.toNat ∣ a ∨ a ^ (decompose n).1.toNat % n.val.toNat = 1 ∨
        ∃ r, r < (decompose n).2 ∧ a ^ ((decompose n).1.toNat * 2 ^ r) % n.val.toNat = n.val.toNat - 1 := by
  refine or_congr_right ⟨?_, fun h => ⟨_, _, decompose_mul_two_pow n, decompose_odd n, h⟩⟩
  rintro ⟨d, s, hmul, hodd, h⟩
  obtain ⟨rfl, rfl⟩ := odd_mul_two_pow_inj hodd (decompose_odd n) (hmul.symm.trans (decompose_mul_two_pow n))
  exact h

/-- The exponents `d * 2 ^ r` for `r < s`: the one at 0 is `d`, the others are reached by squaring. -/
theorem exists_lt_iff_zero_or {P : Nat → Prop} {s : Nat} (hs : 1 ≤ s) :
    (∃ r, r < s ∧ P r) ↔ P 0 ∨ ∃ r, 1 ≤ r ∧ r ≤ s - 1 ∧ P r := by
  constructor
  · rintro ⟨r, hr, h⟩
    rcases Nat.eq_zero_or_pos r with rfl | hpos
    · exact .inl h
    · exact .inr ⟨r, hpos, by omega, h⟩
  · rintro (h | ⟨r, -, hr, h⟩)
    · exact ⟨0, by omega, h⟩
    · exact ⟨r, by omega, h⟩

theorem witnessPass_iff_strongProbablePrime (a : Word) (n : MrNumber) :
    witnessPass a n (decompose n).1 (decompose n).2 = true ↔ StrongProbablePrime n.val.toNat a.toNat := by
  rw [witnessPass_iff, strongProbablePrime_iff_decompose, exists_lt_iff_zero_or (one_le_decompose_snd n),
    pow_zero, mul_one, Nat.dvd_iff_mod_eq_zero]

/-- The bases as numbers (R131). -/
def baseNumbers : List Nat := [2, 325, 9375, 28178, 450775, 9780504, 1795265022]

theorem witnesses_map_toNat : witnesses.map BitVec.toNat = baseNumbers := rfl

theorem mr7_iff (n : MrNumber) : mr7 n = true ↔ ∀ a ∈ baseNumbers, StrongProbablePrime n.val.toNat a := by
  rw [← witnesses_map_toNat, List.forall_mem_map]
  exact List.all_eq_true.trans (forall₂_congr fun a _ => witnessPass_iff_strongProbablePrime a n)

/-! ### Trial division (R139) -/

/-- The table as numbers (R132). -/
def tableNumbers : List Nat := [2, 3, 5, 7, 11, 13, 17, 19, 23, 29, 31, 37]

theorem smallPrimes_map_toNat : smallPrimes.map (·.val.toNat) = tableNumbers := rfl

theorem tableNumbers_prime : ∀ p ∈ tableNumbers, p.Prime := by decide

theorem tableNumbers_pairwise_not_dvd : tableNumbers.Pairwise (¬ · ∣ ·) := by decide

/-- An entry divides itself, so "no entry divides `n`" covers "`n` is no entry". -/
theorem trialFrom_eq_undecided_iff (n : Word) (ps : List Modulus) :
    trialFrom n ps = .undecided ↔ ∀ p ∈ ps.map (·.val.toNat), ¬ p ∣ n.toNat := by
  induction ps with
  | nil => simp [trialFrom]
  | cons p ps ih =>
    rw [List.map_cons, List.forall_mem_cons, trialFrom]
    split
    case isTrue heq => exact iff_of_false nofun fun h => h.1 (heq ▸ dvd_rfl)
    case isFalse =>
      split
      case isTrue hzero => exact iff_of_false nofun fun h => h.1 ((reduce_eq_zero_iff n p).mp hzero)
      case isFalse hzero => rw [ih, and_iff_right (mt (reduce_eq_zero_iff n p).mpr hzero)]

/-- Where no entry divides a later one, an entry is never taken for a multiple of an earlier one. -/
theorem trialFrom_eq_prime_iff (n : Word) (ps : List Modulus)
    (hps : (ps.map (·.val.toNat)).Pairwise (¬ · ∣ ·)) :
    trialFrom n ps = .prime ↔ n.toNat ∈ ps.map (·.val.toNat) := by
  induction ps with
  | nil => simp [trialFrom]
  | cons p ps ih =>
    obtain ⟨hp, hps⟩ := List.pairwise_cons.mp hps
    rw [List.map_cons, List.mem_cons, BitVec.toNat_inj, trialFrom]
    split
    case isTrue heq => exact iff_of_true rfl (.inl heq)
    case isFalse hne =>
      rw [or_iff_right hne]
      split
      case isTrue hzero => exact iff_of_false nofun fun hmem => hp _ hmem ((reduce_eq_zero_iff n p).mp hzero)
      case isFalse => exact ih hps

theorem trial_eq_undecided_iff (n : Word) : trial n = .undecided ↔ ∀ p ∈ tableNumbers, ¬ p ∣ n.toNat := by
  rw [← smallPrimes_map_toNat]
  exact trialFrom_eq_undecided_iff n smallPrimes

theorem trial_eq_prime_iff (n : Word) : trial n = .prime ↔ n.toNat ∈ tableNumbers := by
  rw [← smallPrimes_map_toNat]
  exact trialFrom_eq_prime_iff n smallPrimes tableNumbers_pairwise_not_dvd

/-- The verdict that is left. -/
theorem trial_eq_composite_iff (n : Word) :
    trial n = .composite ↔ n.toNat ∉ tableNumbers ∧ ∃ p ∈ tableNumbers, p ∣ n.toNat := by
  have hundecided : (∃ p ∈ tableNumbers, p ∣ n.toNat) ↔ trial n ≠ .undecided := by
    simp only [ne_eq, trial_eq_undecided_iff, not_forall, not_not, exists_prop]
  rw [hundecided, ← trial_eq_prime_iff]
  cases trial n <;> simp

/-! ### What trial division leaves undecided (R141) -/

theorem exists_tableNumber_dvd_of_lt : ∀ n < 41, 2 ≤ n → ∃ p ∈ tableNumbers, p ∣ n := by decide

section
variable {n : Nat} (hn : ∀ p ∈ tableNumbers, ¬ p ∣ n)
include hn

theorem le_of_no_tableNumber_dvd (h2 : 2 ≤ n) : 41 ≤ n := by
  by_contra hlt
  obtain ⟨p, hp, hdvd⟩ := exists_tableNumber_dvd_of_lt n (Nat.lt_of_not_le hlt) h2
  exact hn p hp hdvd

/-- A factor built of the table's primes cancels. -/
theorem dvd_of_dvd_smooth_mul {k q : Nat} (hk : k ∣ tableNumbers.prod ^ 5) (h : n ∣ k * q) : n ∣ q := by
  have hcop : n.Coprime tableNumbers.prod := Nat.coprime_list_prod_right_iff.mpr fun p hp =>
    ((tableNumbers_prime p hp).coprime_iff_not_dvd.mpr (hn p hp)).symm
  exact ((hcop.pow_right 5).coprime_dvd_right hk).dvd_of_dvd_mul_left h

end

/-- Each base as a part built of the table's primes times the rest (R141). -/
def baseFactors : List (Nat × Nat) :=
  [(2, 1), (325, 1), (9375, 1), (2, 73 * 193), (6175, 73), (24, 407521), (6, 299210837)]

theorem baseFactors_map_mul : baseFactors.map (fun f => f.1 * f.2) = baseNumbers := rfl

theorem baseFactors_fst_smooth : ∀ f ∈ baseFactors, f.1 ∣ tableNumbers.prod ^ 5 := by decide

/-- The numbers above 1 that divide a base and are divided by no entry of the table (R141). -/
def skippedNumbers : List Nat := [73, 193, 14089, 407521, 299210837]

theorem skippedNumbers_dvd_base : ∀ n ∈ skippedNumbers, ∃ a ∈ baseNumbers, n ∣ a := by decide

/-- By Lucas's test: 2 has order `p - 1`, and `p - 1 = 2 ^ 2 * 47 * 1591547`. -/
theorem prime_299210837 : Nat.Prime 299210837 := by
  have hprimes {q : Nat} (hq : q.Prime) (hdvd : q ∣ 299210837 - 1) : q = 2 ∨ q = 47 ∨ q = 1591547 := by
    have hmul : q ∣ 2 ^ 2 * 47 * 1591547 := hdvd
    rw [hq.dvd_mul, hq.dvd_mul] at hmul
    rcases hmul with (h | h) | h
    · exact .inl ((Nat.prime_dvd_prime_iff_eq hq Nat.prime_two).mp (hq.dvd_of_dvd_pow h))
    · exact .inr (.inl ((Nat.prime_dvd_prime_iff_eq hq (by norm_num)).mp h))
    · exact .inr (.inr ((Nat.prime_dvd_prime_iff_eq hq (by norm_num)).mp h))
  refine lucas_primality _ 2 (by reduce_mod_char) fun q hq hdvd => ?_
  rcases hprimes hq hdvd with rfl | rfl | rfl
  all_goals
    simp only [Nat.reduceSub, Nat.reduceDiv]
    reduce_mod_char
    decide

/-- The rests are 1, primes, and one product of two primes. -/
theorem mem_skippedNumbers_of_dvd {n : Nat} (h2 : 2 ≤ n) : ∀ f ∈ baseFactors, n ∣ f.2 → n ∈ skippedNumbers := by
  have one (hdvd : n ∣ 1) : n ∈ skippedNumbers := absurd (Nat.dvd_one.mp hdvd) (by omega)
  have prime {p : Nat} (hp : p.Prime) (hmem : p ∈ skippedNumbers) (hdvd : n ∣ p) : n ∈ skippedNumbers :=
    ((Nat.dvd_prime hp).mp hdvd).elim (fun h => absurd h (by omega)) (· ▸ hmem)
  have h73 : Nat.Prime 73 := by norm_num
  have product (hdvd : n ∣ 73 * 193) : n ∈ skippedNumbers := by
    obtain ⟨y, z, hy, hz, rfl⟩ := Nat.dvd_mul.mp hdvd
    rcases (Nat.dvd_prime h73).mp hy with rfl | rfl
    · exact prime (by norm_num) (by decide) ((Nat.one_mul z).symm ▸ hz)
    · rcases (Nat.dvd_prime (by norm_num)).mp hz with rfl | rfl <;> decide
  simp only [baseFactors, List.forall_mem_cons]
  exact ⟨one, one, one, product, prime h73 (by decide), prime (by norm_num) (by decide),
    prime prime_299210837 (by decide), nofun⟩

/-- Where a base is skipped inside `is_prime` (R141). -/
theorem exists_base_dvd_iff {n : Nat} (hn : ∀ p ∈ tableNumbers, ¬ p ∣ n) (h2 : 2 ≤ n) :
    (∃ a ∈ baseNumbers, n ∣ a) ↔ n ∈ skippedNumbers := by
  refine ⟨?_, skippedNumbers_dvd_base n⟩
  rw [← baseFactors_map_mul]
  rintro ⟨a, ha, hdvd⟩
  obtain ⟨f, hf, rfl⟩ := List.mem_map.mp ha
  exact mem_skippedNumbers_of_dvd h2 f hf (dvd_of_dvd_smooth_mul hn (baseFactors_fst_smooth f hf) hdvd)

/-! ### The predicate (R140) -/

theorem isPrime_of_lt_two {n : Word} (h : n < 2) : isPrime n = false := dif_pos h

/-- From 2 on, trial division decides or hands the number to the Miller-Rabin stage. -/
theorem isPrime_iff_of_two_le {n : Word} (h : ¬ n < 2) :
    isPrime n = true ↔ trial n = .prime ∨ trial n = .undecided ∧ ∀ hd : MrDomain n, mr7 ⟨n, hd⟩ = true := by
  rw [isPrime, dif_neg h]
  split
  case h_1 ht => exact iff_of_true rfl (.inl ht)
  case h_2 ht => simp [ht]
  case h_3 ht =>
    rw [forall_prop_of_true (mrDomain_of_undecided h ht), or_iff_right (ht ▸ nofun), and_iff_right ht]

theorem isPrime_iff (n : Word) :
    isPrime n = true ↔ n.toNat ∈ tableNumbers ∨
      (2 ≤ n.toNat ∧ (∀ p ∈ tableNumbers, ¬ p ∣ n.toNat) ∧ ∀ a ∈ baseNumbers, StrongProbablePrime n.toNat a) := by
  by_cases h : n < 2
  · have hlt : ¬ 2 ≤ n.toNat := Nat.not_le_of_lt h
    rw [isPrime_of_lt_two h]
    exact iff_of_false nofun fun h => hlt (h.elim (fun hmem => (tableNumbers_prime _ hmem).two_le) And.left)
  · have hge : 2 ≤ n.toNat := Nat.le_of_not_lt h
    rw [isPrime_iff_of_two_le h, trial_eq_prime_iff, and_iff_right hge, ← trial_eq_undecided_iff]
    refine or_congr_right (and_congr_right fun ht => ?_)
    rw [forall_prop_of_true (mrDomain_of_undecided h ht), mr7_iff]

theorem isPrime_of_even {n : Word} (h2 : 2 < n.toNat) (heven : n.toNat % 2 = 0) : isPrime n = false := by
  rw [← Bool.not_eq_true, isPrime_iff]
  rintro (hmem | ⟨-, hn, -⟩)
  · have htwo := (tableNumbers_prime _ hmem).eq_two_or_odd
    omega
  · exact hn 2 (by decide) (Nat.dvd_of_mod_eq_zero heven)

/-! ### The commands, by phase (R142, R143) -/

section
variable {s : State}

theorem exec_mrtest_of_idle_of_not_mrDomain (hb : s.busy = false) (hm : ¬ MrDomain s.m) :
    exec .mrtest s = .next (raiseError .mrDomain s) := by
  simp only [exec, execMrtest, hb, mrOperand_none hm]

theorem exec_mrtest_of_busy (hb : s.busy = true) (hm : MrDomain s.m) :
    exec .mrtest s = .next (deliverDrawn (if mr7 ⟨s.m, hm⟩ then 1 else 0) s) := by
  simp only [exec, execMrtest, hb, mrOperand_some hm, verdictWord_eq]

theorem exec_isprime_of_busy (hb : s.busy = true) :
    exec .isprime s = .next (deliverDrawn (if isPrime s.m then 1 else 0) s) := by
  simp only [exec, execIsprime, hb, verdictWord_eq]

end

end Sys2Proof.Machine

open Sys2Proof Sys2Proof.Machine

/-- Settles O9: the loop's invariant gives the factorisation, and the bounds follow from it. -/
theorem decomposeSplitsOffTheTwos : Obligations.DecomposeSplitsOffTheTwos := by
  refine ⟨fun n => ⟨decompose_mul_two_pow n, decompose_odd n, one_le_decompose_snd n, decompose_snd_le n,
    one_le_decompose_fst n, decompose_fst_le n⟩, ?_, ?_, ?_, ?_⟩
  all_goals decide

/-- Settles O10: the test on the residue, said of powers of the base. -/
theorem witnessPassesAsTheRuleSays : Obligations.WitnessPassesAsTheRuleSays := fun a n =>
  witnessPass_iff a n (decompose n).1 (decompose n).2

/-- Settles O11: base by base, since `n - 1` has only one decomposition. -/
theorem millerRabinStageIsSevenBases : Obligations.MillerRabinStageIsSevenBases := mr7_iff

/-- Settles O12: each verdict by its lemma, and the two edges of the range rule by evaluation. -/
theorem trialDivisionVerdicts : Obligations.TrialDivisionVerdicts :=
  ⟨fun n => ⟨trial_eq_prime_iff n, trial_eq_composite_iff n, trial_eq_undecided_iff n⟩, by decide, by decide⟩

/-- Settles O13: the table's primes cancel from every base. -/
theorem undecidedNumbersSuitMillerRabin : Obligations.UndecidedNumbersSuitMillerRabin := by
  intro n h2 ht
  have hn := (trial_eq_undecided_iff n).mp ht
  exact ⟨Nat.two_dvd_ne_zero.mp (hn 2 (by decide)), le_of_no_tableNumber_dvd hn h2, fun h => one_le_decompose_snd ⟨n, h⟩,
    exists_base_dvd_iff hn h2⟩

/-- Settles O14: the range rule, the table, then the seven bases. -/
theorem isPrimeRunsThreeStages : Obligations.IsPrimeRunsThreeStages := fun n =>
  ⟨isPrime_iff n, isPrime_of_lt_two, isPrime_of_even⟩

/-- Settles O20: the check at issue, the acceptance, and the completion with the verdict of the seven bases. -/
theorem mrtestCommand : Obligations.MrtestCommand := by
  refine ⟨rfl, fun s => ⟨fun hb hm => ?mrDomain, fun hb h3 hbit => ?acceptance, fun hb hm => ?completion⟩⟩
  case mrDomain =>
    refine exec_mrtest_of_idle_of_not_mrDomain hb fun ⟨h3, hbit⟩ => ?_
    rcases hm with hlt | heven
    · exact BitVec.not_lt.mpr h3 hlt
    · exact Bool.false_ne_true (heven.symm.trans hbit)
  case acceptance => exact exec_of_idle_of_operandOk (i := .mrtest) hb ⟨h3, hbit⟩
  case completion => exact exec_mrtest_of_busy hb hm

/-- Settles O21: every `M` is accepted, and the completion gives the verdict of the predicate. -/
theorem isprimeCommand : Obligations.IsprimeCommand :=
  ⟨rfl, fun _ => ⟨fun hb => exec_of_idle_of_operandOk (i := .isprime) hb trivial, exec_isprime_of_busy⟩⟩

end

section
/-! PROOFS. The family of 43_sequencing_and_system.md: what a write to CMD does (R150, R163). Each check of an idle
block has its own lemma: the word first, then the operand by the command that the word encodes. -/

namespace Sys2Proof.Machine

theorem decodeWord_of_not_legalWord {v : Word} (h : legalWord v = false) : ∃ e, decodeWord v = .error e := by
  cases hd : decodeWord v with
  | error e => exact ⟨e, rfl⟩
  | ok i => exact absurd (legalWord_of_decodeWord hd) (Bool.eq_false_iff.mp h)

theorem decodeWord_encode (i : Instr) : decodeWord (encode i) = .ok i := by cases i <;> rfl

/-- The two ways to fail the check of MRTEST (R161). -/
theorem not_mrDomain_iff (n : Word) : ¬ MrDomain n ↔ n < 3 ∨ n.getLsbD 0 = false := by
  rw [not_and_or, BitVec.not_le, Bool.not_eq_true]

section
variable {s : State} {v : Word} {i : Instr}

/-- The check of the word comes before any check of the operand (R163). -/
theorem issue_of_not_legalWord (h : legalWord v = false) :
    issue v s = .next (raiseError .illegalCmd { s with cmd := v }) := by
  obtain ⟨e, he⟩ := decodeWord_of_not_legalWord h
  simp only [issue, he]

theorem issue_encode : issue (encode i) s = exec i { s with cmd := encode i } := by
  simp only [issue, decodeWord_encode]

theorem issue_encode_of_operandOk (hb : s.busy = false) (ho : OperandOk i s.m) :
    issue (encode i) s = .next (acceptCommand { s with cmd := encode i }) :=
  issue_encode.trans (exec_of_idle_of_operandOk hb ho)

end

end Sys2Proof.Machine

open Sys2Proof Sys2Proof.Machine

/-- Settles O27: a busy block drops the write; an idle one issues the word, and the checks are taken in their order. -/
theorem cmdWriteChecksInOrder : Obligations.CmdWriteChecksInOrder := by
  intro s v rest hm hh
  rw [step_of_wr hm hh]
  have issued (hb : s.busy = false) : regWrite .cmd v { s with host := rest, turns := s.turns.tail } =
      issue v { s with host := rest, turns := s.turns.tail } := regWrite_cmd_of_idle hb
  refine ⟨fun hb => ?dropped, fun hb hv => ?illegal, fun hb hv h0 => ?zeroModulus, fun hb hv hdom => ?mrDomain,
    fun hb hv => ?accepted⟩
  case dropped => exact regWrite_of_busy hb (by simp)
  all_goals rw [issued hb]
  case illegal => exact issue_of_not_legalWord hv
  case zeroModulus =>
    rcases hv with rfl | rfl
    · exact (issue_encode (i := .mulmod)).trans (exec_of_idle_of_zero_modulus (.inl rfl) hb h0)
    · exact (issue_encode (i := .powmod)).trans (exec_of_idle_of_zero_modulus (.inr rfl) hb h0)
  case mrDomain =>
    obtain rfl := hv
    exact (issue_encode (i := .mrtest)).trans
      (exec_mrtest_of_idle_of_not_mrDomain hb ((not_mrDomain_iff s.m).mpr hdom))
  case accepted =>
    rcases hv with ⟨rfl | rfl, h0⟩ | ⟨rfl, hdom⟩ | rfl
    · exact issue_encode_of_operandOk (i := .mulmod) hb h0
    · exact issue_encode_of_operandOk (i := .powmod) hb h0
    · exact issue_encode_of_operandOk (i := .mrtest) hb hdom
    · exact issue_encode_of_operandOk (i := .isprime) hb trivial

end

section
/-! PROOFS. The family of 60_exceptions.md: an idle block holds its state (R175). `StepEvent` says that an idle step
with no reset and no write writes no register; what is left to show is that it also leaves the count of draws, which
only a read while busy and a completion advance (log 3, log 4). -/

namespace Sys2Proof.Machine

/-! ### A step of an idle block leaves the count of draws -/

section
variable {s t : State}

/-- No write draws a free value, in either phase: an issue leaves that to the completion. -/
theorem draws_of_regWrite {r : Reg} {v : Word} (h : regWrite r v s = .next t) : t.draws = s.draws := by
  rcases regWrite_cases r v s with ⟨-, -, he⟩ | ⟨-, -, he⟩ | ⟨-, -, he⟩ | ⟨-, -, he⟩ | ⟨-, -, he | ⟨c, he⟩⟩ |
    ⟨-, he⟩ | ⟨-, he⟩ <;> cases he.symm.trans h
  case inr.inr.inr.inr.inr.inl => exact writeStatus_draws v s
  all_goals rfl

theorem regRead_draws_of_idle (r : Reg) (hb : s.busy = false) : (regRead r s).draws = s.draws := by
  rw [regRead_draws, hb, Bool.false_and, if_neg Bool.false_ne_true]

theorem draws_of_hostTurn_of_idle (hb : s.busy = false) (h : hostTurn s = .next t) : t.draws = s.draws := by
  unfold hostTurn at h
  split at h
  case h_1 => cases h; rfl
  case h_2 r rest _ => cases h; exact regRead_draws_of_idle r hb
  case h_3 => exact (draws_of_regWrite h).trans rfl
  case h_4 rest _ => cases h; exact waitPoll_draws rest s
  case h_5 =>
    split at h <;> cases h
    case h_1 r _ => exact regRead_draws_of_idle r hb
    case h_2 => rfl
  case h_6 =>
    split at h
    case h_1 => exact (draws_of_regWrite h).trans rfl
    case h_2 => cases h; rfl
    case h_3 => cases h

theorem blockTurn_of_idle (hb : s.busy = false) : blockTurn s = .next s := if_neg (Bool.eq_false_iff.mp hb)

theorem draws_of_step_of_idle (hb : s.busy = false) (h : step s = .next t) : t.draws = s.draws := by
  unfold step takeTurn at h
  split at h
  case h_1 =>
    rw [if_neg (Bool.eq_false_iff.mp hb)] at h
    exact draws_of_hostTurn_of_idle hb h
  case h_2 ts _ => exact draws_of_hostTurn_of_idle (s := { s with turns := ts }) hb h
  case h_3 ts _ =>
    cases (blockTurn_of_idle (s := { s with turns := ts }) hb).symm.trans h
    rfl
  case h_4 => cases h; rfl

/-! ### The events of an idle block -/

/-- The quiet event is the only one of an idle block that is neither a reset nor a write. -/
theorem StepEvent.eq_of_idle (e : StepEvent s t) (hb : s.busy = false) (hr : s.resetMoves = false)
    (hw : s.nextWrite = none) :
    ∃ x k l, t = { s with rdata := x, draws := k, host := l, turns := s.turns.tail } := by
  cases e with
  | quiet x k l => exact ⟨x, k, l, rfl⟩
  | reset _ hreset => simp [hr] at hreset
  | completion _ _ _ _ _ _ hbusy => simp [hb] at hbusy
  | droppedWrite _ _ _ _ _ hwrite | writeA _ _ _ _ hwrite | writeB _ _ _ _ hwrite | writeM _ _ _ _ hwrite
  | acceptance _ _ _ _ _ hwrite | errorCompletion _ _ _ _ _ hwrite | statusWrite _ _ _ _ hwrite =>
    simp [hw] at hwrite

end

end Sys2Proof.Machine

open Sys2Proof.Machine

/-- Settles O44: the step is the quiet event, and an idle step leaves the count of draws. -/
theorem idleBlockHoldsItsState : Obligations.IdleBlockHoldsItsState := by
  intro s t hb hr hw h
  obtain ⟨x, k, l, rfl⟩ := (stepEvent_of_step h).eq_of_idle hb hr hw
  obtain rfl : k = s.draws := draws_of_step_of_idle hb h
  exact ⟨x, l, rfl⟩

end

section
/-! PROOFS. Statements about the pure functions: the decoder against the encoder and the opcode table (R70, R71), the
narrow fallback (R96), and how far the predicate is exact (R138). -/

namespace Sys2Proof.Machine

/-! ### The decoder, the encoder and the opcode table (30_encoding.md section 1) -/

/-- With the reserved bits zero a word is its opcode (R70). -/
theorem eq_setWidth_opcodeField {v : Word} (hr : reservedField v = 0) : v = (opcodeField v).setWidth 64 := by
  have hhigh : v.toNat / 2 ^ 8 % 2 ^ 56 = 0 := by
    simpa [reservedField, BitVec.extractLsb'_toNat, Nat.shiftRight_eq_div_pow] using congrArg BitVec.toNat hr
  apply BitVec.eq_of_toNat_eq
  rw [BitVec.toNat_setWidth, opcodeField, BitVec.extractLsb'_toNat, Nat.shiftRight_zero]
  have hv := v.isLt
  omega

theorem decodeOpcode_eq_some_iff {op : BitVec 8} {i : Instr} :
    decodeOpcode op = some i ↔ op = opcodeField (encode i) := by
  constructor
  · intro h
    rcases opcode_of_decodeOpcode h with rfl | rfl | rfl | rfl <;> cases h <;> rfl
  · rintro rfl
    cases i <;> rfl

theorem decodeWord_eq_ok_iff_eq_encode {v : Word} {i : Instr} : decodeWord v = .ok i ↔ v = encode i := by
  refine ⟨fun h => ?_, fun h => h ▸ decodeWord_encode i⟩
  obtain ⟨hres, hop⟩ := decodeWord_eq_ok_iff.mp h
  calc v = (opcodeField v).setWidth 64 := eq_setWidth_opcodeField hres
    _ = (opcodeField (encode i)).setWidth 64 := by rw [decodeOpcode_eq_some_iff.mp hop]
    _ = encode i := by cases i <;> rfl

theorem encode_injective : Function.Injective encode := fun i j h =>
  Except.ok.inj ((decodeWord_encode i).symm.trans (h ▸ decodeWord_encode j))

theorem exists_decodeOpcode_eq_some {op : BitVec 8} (h : op = 1 ∨ op = 2 ∨ op = 3 ∨ op = 4) :
    ∃ i, decodeOpcode op = some i := by
  rcases h with rfl | rfl | rfl | rfl <;> exact ⟨_, rfl⟩

/-- The word of an assigned opcode with the reserved bits zero is a command's. -/
theorem exists_eq_encode {v : Word} (hr : reservedField v = 0)
    (ho : opcodeField v = 1 ∨ opcodeField v = 2 ∨ opcodeField v = 3 ∨ opcodeField v = 4) : ∃ i, v = encode i := by
  obtain ⟨i, hi⟩ := exists_decodeOpcode_eq_some ho
  exact ⟨i, decodeWord_eq_ok_iff_eq_encode.mp (decodeWord_eq_ok_iff.mpr ⟨hr, hi⟩)⟩

theorem legalWord_iff_exists_encode {v : Word} : legalWord v = true ↔ ∃ i, v = encode i := by
  constructor
  · intro h
    rw [legalWord, Bool.and_eq_true, beq_iff_eq, List.contains_iff_mem] at h
    obtain ⟨hres, hop⟩ := h
    exact exists_eq_encode hres (by simpa [opcodeField] using hop)
  · rintro ⟨i, rfl⟩
    exact legalWord_of_decodeWord (decodeWord_encode i)

/-- The row of a command: every bit of the word counts, and the match value is the command's word (R71). -/
def commandRow (i : Instr) : TableRow := ⟨i, BitVec.allOnes 64, encode i⟩

theorem opcodeTable_eq_map : opcodeTable = [.mulmod, .powmod, .mrtest, .isprime].map commandRow := rfl

theorem exists_mem_opcodeTable_iff {P : TableRow → Prop} : (∃ row ∈ opcodeTable, P row) ↔ ∃ i, P (commandRow i) := by
  have all (i : Instr) : i ∈ [Instr.mulmod, .powmod, .mrtest, .isprime] := by cases i <;> decide
  simp only [opcodeTable_eq_map, List.mem_map, all, true_and, exists_exists_eq_and]

theorem commandRow_matches_iff (v : Word) (i : Instr) :
    v &&& (commandRow i).mask = (commandRow i).pattern ↔ v = encode i := by
  rw [commandRow, BitVec.and_allOnes]

/-! ### The narrow fallback (40_mulmod.md section 4) -/

/-- Where R96 subtracts, the sum has reached `m`; either way the value is the residue of the exact sum. -/
theorem addmod_toNat {x y m : Word} (hx : x.toNat < m.toNat) (hy : y.toNat < m.toNat) :
    (addmod x y m).toNat = (x.toNat + y.toNat) % m.toNat := by
  have hm := m.isLt
  have hgap : (m - y).toNat = m.toNat - y.toNat := BitVec.toNat_sub_of_le (Nat.le_of_lt hy)
  rw [addmod]
  split
  case isTrue hle =>
    have hsum : m.toNat - y.toNat ≤ x.toNat := hgap ▸ hle
    rw [BitVec.toNat_sub_of_le hle, hgap, Nat.mod_eq_sub_mod (by omega), Nat.mod_eq_of_lt (by omega)]
    omega
  case isFalse hgt =>
    have hsum : ¬ m.toNat - y.toNat ≤ x.toNat := hgap ▸ hgt
    rw [BitVec.toNat_add, Nat.mod_eq_of_lt (by omega), Nat.mod_eq_of_lt (by omega)]

theorem addmod_lt {x y m : Word} (hx : x.toNat < m.toNat) (hy : y.toNat < m.toNat) :
    (addmod x y m).toNat < m.toNat := by
  rw [addmod_toNat hx hy]
  exact Nat.mod_lt _ (Nat.zero_lt_of_lt hx)

theorem addmod_modEq {x y m : Word} (hx : x.toNat < m.toNat) (hy : y.toNat < m.toNat) :
    (addmod x y m).toNat ≡ x.toNat + y.toNat [MOD m.toNat] := by
  rw [addmod_toNat hx hy]
  exact Nat.mod_modEq _ _

/-- The conditional addition of R96 adds `a * (b mod 2)`. -/
theorem addStep_modEq {r a m : Word} (b : Word) (hr : r.toNat < m.toNat) (ha : a.toNat < m.toNat) :
    (if b.getLsbD 0 then addmod r a m else r).toNat ≡ r.toNat + a.toNat * (b.toNat % 2) [MOD m.toNat] := by
  by_cases hbit : b.getLsbD 0 = true
  · rw [if_pos hbit, (getLsbD_zero_iff b).mp hbit, mul_one]
    exact addmod_modEq hr ha
  · have hzero : b.toNat % 2 = 0 := Nat.mod_two_ne_one.mp (mt (getLsbD_zero_iff b).mpr hbit)
    rw [if_neg hbit, hzero, mul_zero, add_zero]

/-- The loop's invariant: `r + a * b` keeps its residue, so long as there is fuel for every bit of `b`. -/
theorem mulmodBinLoop_spec {m : Word} (fuel : Nat) {r a b : Word} (hr : r.toNat < m.toNat) (ha : a.toNat < m.toNat)
    (hb : b.toNat < 2 ^ fuel) : (mulmodBinLoop m fuel r a b).toNat = (r.toNat + a.toNat * b.toNat) % m.toNat := by
  induction fuel generalizing r a b with
  | zero =>
    have hzero : b.toNat = 0 := Nat.lt_one_iff.mp hb
    rw [mulmodBinLoop, hzero, mul_zero, add_zero, Nat.mod_eq_of_lt hr]
  | succ fuel ih =>
    rw [mulmodBinLoop]
    split
    case isTrue hzero => simp [hzero, Nat.mod_eq_of_lt hr]
    case isFalse =>
      have hhalf := ushiftRight_one_toNat b
      have hstep : (if b.getLsbD 0 then addmod r a m else r).toNat < m.toNat := by
        split
        case isTrue => exact addmod_lt hr ha
        case isFalse => exact hr
      rw [ih hstep (addmod_lt ha ha) (by omega), hhalf]
      calc _ ≡ r.toNat + a.toNat * (b.toNat % 2) + (a.toNat + a.toNat) * (b.toNat / 2) [MOD m.toNat] :=
            (addStep_modEq b hr ha).add ((addmod_modEq ha ha).mul_right _)
        _ = r.toNat + a.toNat * (b.toNat % 2 + 2 * (b.toNat / 2)) := by ring
        _ = r.toNat + a.toNat * b.toNat := by rw [Nat.mod_add_div]

theorem mulmodBin_eq_mulmod (a b : Word) (m : Modulus) : mulmodBin a b m = mulmod a b m := by
  have hm := modulus_pos m
  have hlt (x : Word) : (x % m.val).toNat < m.val.toNat := by
    rw [BitVec.toNat_umod]
    exact Nat.mod_lt _ hm
  apply BitVec.eq_of_toNat_eq
  rw [mulmodBin, mulmodBinLoop_spec (r := 0) 64 hm (hlt a) (BitVec.isLt _), ← mulmod_umod_umod, mulmod_toNat]
  exact congrArg (· % m.val.toNat) (Nat.zero_add _)

/-! ### Exactness of the predicate (42_primality.md section 2) -/

/-- Squaring up to 1 passes through -1, unless it starts at 1. -/
theorem eq_one_or_exists_pow_eq_neg_one {R : Type} [CommRing R] [NoZeroDivisors R] {x : R} {s : Nat}
    (h : x ^ 2 ^ s = 1) : x = 1 ∨ ∃ r, r < s ∧ x ^ 2 ^ r = -1 := by
  induction s with
  | zero => exact .inl (by simpa using h)
  | succ s ih =>
    rw [pow_succ, pow_mul, sq_eq_one_iff] at h
    rcases h with h | h
    · exact (ih h).imp_right fun ⟨r, hr, hpow⟩ => ⟨r, Nat.lt_succ_of_lt hr, hpow⟩
    · exact .inr ⟨s, Nat.lt_succ_self s, h⟩

theorem pow_mod_eq_of_natCast {p a e k : Nat} (hk : k < p) (h : (a : ZMod p) ^ e = k) : a ^ e % p = k := by
  rw [← Nat.cast_pow, ZMod.natCast_eq_natCast_iff'] at h
  rw [h, Nat.mod_eq_of_lt hk]

/-- No base shows a prime composite: Fermat's little theorem, and 1 has no square roots but 1 and -1. -/
theorem strongProbablePrime_of_prime {p : Nat} (hp : p.Prime) (a : Nat) : StrongProbablePrime p a := by
  have := Fact.mk hp
  obtain ⟨s, d, hodd, hmul⟩ := Nat.exists_eq_two_pow_mul_odd (Nat.sub_ne_zero_of_lt hp.one_lt)
  rw [mul_comm] at hmul
  refine or_iff_not_imp_left.mpr fun hdvd => ⟨d, s, hmul, Nat.odd_iff.mp hodd, ?_⟩
  have hne : (a : ZMod p) ≠ 0 := mt (ZMod.natCast_eq_zero_iff a p).mp hdvd
  have hfermat : ((a : ZMod p) ^ d) ^ 2 ^ s = 1 := by
    rw [← pow_mul, ← hmul, ZMod.pow_card_sub_one_eq_one hne]
  rcases eq_one_or_exists_pow_eq_neg_one hfermat with h | ⟨r, hr, h⟩
  · exact .inl (pow_mod_eq_of_natCast hp.one_lt (by rw [h, Nat.cast_one]))
  · refine .inr ⟨r, hr, pow_mod_eq_of_natCast (Nat.sub_one_lt hp.ne_zero) ?_⟩
    rw [pow_mul, h, Nat.cast_pred hp.pos, ZMod.natCast_self, zero_sub]

theorem mem_tableNumbers_of_dvd_prime {n p : Nat} (hn : n.Prime) (hp : p ∈ tableNumbers) (h : p ∣ n) :
    n ∈ tableNumbers := (Nat.prime_dvd_prime_iff_eq (tableNumbers_prime p hp) hn).mp h ▸ hp

theorem isPrime_of_prime {n : Word} (hn : n.toNat.Prime) : isPrime n = true := by
  rw [isPrime_iff]
  by_cases hmem : n.toNat ∈ tableNumbers
  · exact .inl hmem
  · exact .inr ⟨hn.two_le, fun p hp hdvd => hmem (mem_tableNumbers_of_dvd_prime hn hp hdvd),
      fun a _ => strongProbablePrime_of_prime hn a⟩

/-- Below `41 ^ 2` trial division finds a factor of every composite (R139). -/
theorem prime_of_no_tableNumber_dvd {n : Nat} (h2 : 2 ≤ n) (hlt : n < 1681)
    (hn : ∀ p ∈ tableNumbers, ¬ p ∣ n) : n.Prime := by
  by_contra hcomp
  have hsq : n.minFac ^ 2 ≤ n := Nat.minFac_sq_le_self (by omega) hcomp
  have hfac : n.minFac < 41 := (Nat.pow_lt_pow_iff_left (n := 2) (by decide)).mp (hsq.trans_lt hlt)
  obtain ⟨p, hp, hdvd⟩ := exists_tableNumber_dvd_of_lt _ hfac (Nat.minFac_prime (by omega)).two_le
  exact hn p hp (hdvd.trans n.minFac_dvd)

end Sys2Proof.Machine
open Sys2Proof Sys2Proof.Machine

/-- Settles O3: the reserved bits are zero, and the opcode is the encoding's. -/
theorem decodeAndEncodeAgree : Obligations.DecodeAndEncodeAgree := fun _ _ => decodeWord_eq_ok_iff_eq_encode

/-- Settles O2: a row matches the word of its command alone. -/
theorem decodeMatchesOpcodeTable : Obligations.DecodeMatchesOpcodeTable := by
  refine ⟨fun v i => ?decoder, fun v => ?legality, ?disjoint⟩
  case decoder =>
    simp only [exists_mem_opcodeTable_iff, commandRow_matches_iff, decodeWord_eq_ok_iff_eq_encode]
    exact ⟨fun h => ⟨i, rfl, h⟩, fun ⟨_, hi, h⟩ => hi ▸ h⟩
  case legality =>
    simp only [exists_mem_opcodeTable_iff, commandRow_matches_iff, legalWord_iff_exists_encode]
  case disjoint =>
    rw [opcodeTable_eq_map, List.pairwise_map]
    have hdistinct : [Instr.mulmod, .powmod, .mrtest, .isprime].Pairwise (· ≠ ·) := by decide
    refine hdistinct.imp fun hne v ⟨hi, hj⟩ => hne (encode_injective ?_)
    exact ((commandRow_matches_iff v _).mp hi).symm.trans ((commandRow_matches_iff v _).mp hj)

/-- Settles O6, by the loop's invariant. -/
theorem narrowFallbackIsBitExact : Obligations.NarrowFallbackIsBitExact := mulmodBin_eq_mulmod

/-- Settles O15: a prime passes every base, and only an entry of the table divides it. -/
theorem noPrimeIsRejected : Obligations.NoPrimeIsRejected :=
  ⟨fun n hn => (mr7_iff n).mpr fun a _ => strongProbablePrime_of_prime hn a, fun _ => isPrime_of_prime⟩

/-- Settles O16: a number that trial division leaves undecided has no factor up to its square root. -/
theorem isPrimeIsExactBelow1681 : Obligations.IsPrimeIsExactBelow1681 := by
  refine fun n hlt => ⟨fun h => ?_, isPrime_of_prime⟩
  rcases (isPrime_iff n).mp h with hmem | ⟨h2, hn, -⟩
  · exact tableNumbers_prime _ hmem
  · exact prime_of_no_tableNumber_dvd h2 hlt hn

/-- Settles O17: trial division is right by itself, and the hypothesis speaks for the rest. -/
theorem isPrimeIsExactWhereTheBasesAre : Obligations.IsPrimeIsExactWhereTheBasesAre := by
  refine fun n hdom hbases => ⟨fun h => ?_, isPrime_of_prime⟩
  rcases (isPrime_iff n).mp h with hmem | ⟨-, -, hpass⟩
  · exact tableNumbers_prime _ hmem
  · exact hbases ((mr7_iff ⟨n, hdom⟩).mpr hpass)

end

section
/-! PROOFS. Statements about the state and its steps: STATUS and reset (R23, R181), the host's other accesses (R55, R79),
what a command reads (R72), which step changes what (R21, R25, R180), and the progress of a command (R152). -/

namespace Sys2Proof.Machine

/-! ### The STATUS word (R23) -/

theorem statusWord_getLsbD_flag (s : State) (i : Nat) (hi : i < 4) :
    (statusWord s).getLsbD i = [s.busy, s.done, s.err, s.ovr][i] := by
  rw [statusWord, BitVec.getLsbD_setWidth, decide_eq_true (by omega), Bool.true_and]
  interval_cases i <;> simp only [BitVec.getLsbD_append, BitVec.getLsbD_ofBool] <;> rfl

theorem statusWord_getLsbD_add_four (s : State) (i : Nat) (hi : i < 60) :
    (statusWord s).getLsbD (i + 4) = s.errCode.getLsbD i := by
  rw [statusWord, BitVec.getLsbD_setWidth, decide_eq_true (by omega), Bool.true_and]
  simp only [BitVec.getLsbD_append]
  simp

theorem statusWord_extractLsb'_errCode (s : State) : (statusWord s).extractLsb' 4 4 = s.errCode := by
  apply BitVec.eq_of_getLsbD_eq
  intro i hi
  rw [BitVec.getLsbD_extractLsb', decide_eq_true hi, Bool.true_and, Nat.add_comm,
    statusWord_getLsbD_add_four s i (by omega)]

/-- ERRCODE ends at bit 7. -/
theorem statusWord_extractLsb'_high (s : State) : (statusWord s).extractLsb' 8 56 = 0 := by
  apply BitVec.eq_of_getLsbD_eq
  intro i hi
  rw [BitVec.getLsbD_extractLsb', decide_eq_true hi, Bool.true_and, Nat.add_comm,
    statusWord_getLsbD_add_four s (i + 4) (by omega), BitVec.getLsbD_of_ge s.errCode (i + 4) (by omega),
    BitVec.ofNat_eq_ofNat, BitVec.getLsbD_zero]

theorem statusWord_resetStep (d : ResetData) (s : State) : statusWord (resetStep d s) = 0 := by
  simp [statusWord]

/-! ### Transfers that reach no register (R55, R57) -/

section
variable {addr len : Nat}

theorem targetOf_eq_outside (h : addr + len ≤ Config.base ∨ Config.base + 64 ≤ addr) :
    targetOf addr len = .outside := by
  have hwhole : ¬ wholeRegister Config.base addr len = true := by
    simp only [wholeRegister, Bool.and_eq_true, decide_eq_true_eq]
    omega
  have htouch : ¬ touchesWindow Config.base addr len = true := by
    simp only [touchesWindow, Bool.and_eq_true, decide_eq_true_eq]
    omega
  rw [targetOf, if_neg hwhole, if_neg htouch]

theorem targetOf_eq_bridge (hlow : addr < Config.base + 64) (hhigh : Config.base < addr + len) (hlen : 0 < len)
    (h : ¬ (len = 8 ∧ Config.base ≤ addr ∧ (addr - Config.base) % 8 = 0)) : targetOf addr len = .bridge := by
  have hwhole : ¬ wholeRegister Config.base addr len = true := by
    simp only [wholeRegister, Bool.and_eq_true, decide_eq_true_eq]
    exact fun ⟨⟨⟨hbase, _⟩, hlen⟩, hmod⟩ => h ⟨hlen, hbase, hmod⟩
  have htouch : touchesWindow Config.base addr len = true := by
    simp only [touchesWindow, Bool.and_eq_true, decide_eq_true_eq]
    exact ⟨⟨hlow, hhigh⟩, hlen⟩
  rw [targetOf, if_neg hwhole, if_pos htouch]

variable {s : State} {v : Word} {act : HostAction} {rest : List HostAction}

theorem step_of_transfer_outside (hm : s.hostMoves = true) (hh : s.host = act :: rest)
    (hact : act = .memRead addr len ∨ act = .memWrite addr len v) (ht : targetOf addr len = .outside) :
    step s = .next { s with host := rest, turns := s.turns.tail } := by
  rw [step_of_hostMoves hm]
  rcases hact with rfl | rfl <;> simp only [hostTurn, hh, ht]

theorem step_of_transfer_bridge (hm : s.hostMoves = true) (hh : s.host = act :: rest)
    (hact : act = .memRead addr len ∨ act = .memWrite addr len v) (ht : targetOf addr len = .bridge) :
    step s = .refused .platformTransfer := by
  rw [step_of_hostMoves hm]
  rcases hact with rfl | rfl <;> simp only [hostTurn, hh, ht]

end

/-! ### Steps known from the head of the turns -/

section
variable {s : State}

theorem step_of_wait {rest : List HostAction} (hm : s.hostMoves = true) (hh : s.host = .wait :: rest) :
    step s = .next (waitPoll rest { s with turns := s.turns.tail }) := by
  rw [step_of_hostMoves hm]
  simp only [hostTurn, hh]

theorem step_of_reset {d : ResetData} {ts : List Turn} (h : s.turns = .reset d :: ts) :
    step s = .next (resetStep d { s with turns := ts }) := by
  simp only [step, takeTurn, h]

theorem step_of_block_of_idle {ts : List Turn} (h : s.turns = .block :: ts) (hb : s.busy = false) :
    step s = .next { s with turns := ts } := by
  simp only [step, takeTurn, h]
  exact blockTurn_of_idle hb

theorem exists_turn_of_resetMoves (h : s.resetMoves = true) : ∃ d ts, s.turns = .reset d :: ts := by
  unfold State.resetMoves at h
  split at h
  case h_1 d ts ht => exact ⟨d, ts, ht⟩
  case h_2 => cases h

/-- The four kinds of the next event (R59). -/
theorem next_event (s : State) :
    (∃ d ts, s.turns = .reset d :: ts) ∨ s.blockCompletes = true ∨ s.hostMoves = true ∨
      ∃ ts, s.turns = .block :: ts ∧ s.busy = false := by
  cases ht : s.turns with
  | nil =>
    cases hb : s.busy with
    | true => exact .inr (.inl (by simp [State.blockCompletes, ht, hb]))
    | false => exact .inr (.inr (.inl (by simp [State.hostMoves, ht, hb])))
  | cons x ts =>
    cases x with
    | reset d => exact .inl ⟨d, ts, rfl⟩
    | host => exact .inr (.inr (.inl (by simp [State.hostMoves, ht])))
    | block =>
      cases hb : s.busy with
      | true => exact .inr (.inl (by simp [State.blockCompletes, ht, hb]))
      | false => exact .inr (.inr (.inr ⟨ts, rfl, rfl⟩))

theorem step_of_completes_of_decodeOpcode {i : Instr} (hc : s.blockCompletes = true)
    (hi : decodeOpcode (opcodeField s.cmd) = some i) : step s = exec i { s with turns := s.turns.tail } := by
  rw [step_of_blockCompletes hc]
  simp only [complete, hi]

theorem step_of_completes_of_unassigned (hc : s.blockCompletes = true)
    (ho : opcodeField s.cmd ∉ [0x01, 0x02, 0x03, 0x04]) : step s = .fault .noCommandInProgress := by
  rw [step_of_blockCompletes hc]
  simp only [complete, decodeOpcode_eq_none ho]

end

theorem tableWord_toNat (v : Word) : tableWord 64 v.toNat = v := by
  rw [tableWord, Nat.mod_eq_of_lt v.isLt, BitVec.ofNat_toNat, BitVec.setWidth_eq]

/-! ### What a command reads, and its refusals -/

/-- A command has one cause for an operand outside its domain; ISPRIME has no such operand (R161). -/
theorem exists_operand_cause (i : Instr) :
    ∃ c, ∀ s : State, s.busy = false → ¬ OperandOk i s.m → exec i s = .next (raiseError c s) := by
  cases i with
  | mulmod => exact ⟨_, fun s hb hm => exec_of_idle_of_zero_modulus (.inl rfl) hb (not_not.mp hm)⟩
  | powmod => exact ⟨_, fun s hb hm => exec_of_idle_of_zero_modulus (.inr rfl) hb (not_not.mp hm)⟩
  | mrtest => exact ⟨_, fun s hb hm => exec_mrtest_of_idle_of_not_mrDomain hb hm⟩
  | isprime => exact ⟨.mrDomain, fun s hb hm => absurd trivial hm⟩

/-- The issue of a command looks at M alone (R150). -/
theorem exec_idle_of_same_modulus (i : Instr) {s t : State} (hs : s.busy = false) (ht : t.busy = false)
    (hm : s.m = t.m) :
    (exec i s = .next (acceptCommand s) ∧ exec i t = .next (acceptCommand t)) ∨
      ∃ c, exec i s = .next (raiseError c s) ∧ exec i t = .next (raiseError c t) := by
  by_cases hok : OperandOk i s.m
  · exact .inl ⟨exec_of_idle_of_operandOk hs hok, exec_of_idle_of_operandOk ht (hm ▸ hok)⟩
  · obtain ⟨c, hc⟩ := exists_operand_cause i
    exact .inr ⟨c, hc s hs hok, hc t ht (hm ▸ hok)⟩

section
variable {i : Instr} {s : State}

theorem exec_of_busy_of_zero_modulus (hi : i = .mulmod ∨ i = .powmod) (hb : s.busy = true) (hm : s.m = 0) :
    exec i s = .refused .operandOutsideDomain := by
  rcases hi with rfl | rfl <;> simp only [exec, execMulmod, execPowmod, hb, modulusOperand_none hm]

theorem exec_mrtest_of_busy_of_not_mrDomain (hb : s.busy = true) (hm : ¬ MrDomain s.m) :
    exec .mrtest s = .refused .operandOutsideDomain := by
  simp only [exec, execMrtest, hb, mrOperand_none hm]

end

/-- The completion of MRTEST and ISPRIME is a function of M (R72, R145). -/
theorem exec_busy_of_primality {i : Instr} (hi : i = .mrtest ∨ i = .isprime) (m : Word) :
    (∃ x, ∀ s : State, s.busy = true → s.m = m → exec i s = .next (deliverDrawn x s)) ∨
      ∀ s : State, s.busy = true → s.m = m → exec i s = .refused .operandOutsideDomain := by
  rcases hi with rfl | rfl
  · by_cases hm : MrDomain m
    · exact .inl ⟨if mr7 ⟨m, hm⟩ then 1 else 0, by rintro s hb rfl; exact exec_mrtest_of_busy hb hm⟩
    · exact .inr (by rintro s hb rfl; exact exec_mrtest_of_busy_of_not_mrDomain hb hm)
  · exact .inl ⟨if isPrime m then 1 else 0, by rintro s hb rfl; exact exec_isprime_of_busy hb⟩

/-! ### Which step changes an operand or a result -/

section
variable {s t : State}

/-- Of A, B, M and CMD only an idle host write changes one, and it is the one written (R21, R22). -/
theorem StepEvent.operand_changed (e : StepEvent s t) (hr : s.resetMoves = false) {r : Reg}
    (hreg : r = .a ∨ r = .b ∨ r = .m ∨ r = .cmd) (h : storedValue r t ≠ storedValue r s) :
    s.busy = false ∧ s.nextWrite = some (r, storedValue r t) := by
  cases e with
  | reset _ hreset => simp [hr] at hreset
  | writeA _ _ _ _ hw hb =>
    rcases hreg with rfl | rfl | rfl | rfl
    exacts [⟨hb, hw⟩, absurd rfl h, absurd rfl h, absurd rfl h]
  | writeB _ _ _ _ hw hb =>
    rcases hreg with rfl | rfl | rfl | rfl
    exacts [absurd rfl h, ⟨hb, hw⟩, absurd rfl h, absurd rfl h]
  | writeM _ _ _ _ hw hb =>
    rcases hreg with rfl | rfl | rfl | rfl
    exacts [absurd rfl h, absurd rfl h, ⟨hb, hw⟩, absurd rfl h]
  | acceptance _ _ _ _ _ hw hb | errorCompletion _ _ _ _ _ hw hb =>
    rcases hreg with rfl | rfl | rfl | rfl
    exacts [absurd rfl h, absurd rfl h, absurd rfl h, ⟨hb, hw⟩]
  | completion | quiet | droppedWrite => rcases hreg with rfl | rfl | rfl | rfl <;> exact absurd rfl h
  | statusWrite => rcases hreg with rfl | rfl | rfl | rfl <;> simp [storedValue] at h

/-- Of RESULT and ACC only a completion changes either (R25, R26). -/
theorem StepEvent.result_changed (e : StepEvent s t) (hr : s.resetMoves = false)
    (h : t.result ≠ s.result ∨ t.acc ≠ s.acc) : s.blockCompletes = true := by
  cases e with
  | completion _ _ _ _ _ hc => exact hc
  | reset _ hreset => simp [hr] at hreset
  | _ => simp at h

/-- BUSY ends by reset or by the completion of the command in CMD (R180). -/
theorem StepEvent.busy_ended (e : StepEvent s t) (h : s.busy = true) (h' : t.busy = false) :
    s.resetMoves = true ∨ (s.blockCompletes = true ∧ t.done = true ∧
      ∃ i, decodeOpcode (opcodeField s.cmd) = some i ∧ exec i { s with turns := s.turns.tail } = .next t) := by
  cases e with
  | reset _ hreset => exact .inl hreset
  | completion i _ _ _ _ hc _ hop hexec => exact .inr ⟨hc, rfl, i, hop, hexec⟩
  | _ => simp_all

theorem StepEvent.turns_eq (e : StepEvent s t) : t.turns = s.turns.tail := by
  cases e <;> simp

end

/-! ### The completion of a command that was accepted -/

/-- RESULT, and for MULMOD ACC, as the command's function of the operands (R94, R114, R142, R143). -/
def HoldsResult (i : Instr) (a b m result : Word) (acc : Acc) : Prop :=
  match i with
  | .mulmod => acc.toNat = a.toNat * b.toNat ∧ result.toNat = a.toNat * b.toNat % m.toNat
  | .powmod => result.toNat = a.toNat ^ b.toNat % m.toNat
  | .mrtest => ∀ h : MrDomain m, result = if mr7 ⟨m, h⟩ then 1 else 0
  | .isprime => result = if isPrime m then 1 else 0

section
variable {s : State}

theorem exec_of_busy_of_operandOk {i : Instr} (hb : s.busy = true) (hm : OperandOk i s.m) :
    ∃ x y k, exec i s = .next (deliver x y { s with draws := k }) ∧ HoldsResult i s.a s.b s.m x y := by
  cases i with
  | mulmod => exact ⟨_, _, s.draws, exec_mulmod_of_busy hb hm, wmul_toNat s.a s.b, mulmod_toNat s.a s.b ⟨s.m, hm⟩⟩
  | powmod => exact ⟨_, _, _, exec_powmod_of_busy hb hm, powmod_toNat s.a s.b ⟨s.m, hm⟩⟩
  | mrtest => exact ⟨_, _, _, exec_mrtest_of_busy hb hm, fun _ => rfl⟩
  | isprime => exact ⟨_, _, _, exec_isprime_of_busy hb, rfl⟩

/-- Invariants 4 to 6 say that a busy block holds a command and that M lies in its domain. -/
theorem Invariants.command_in_progress (h : Invariants s) (hb : s.busy = true) :
    ∃ i, s.cmd = encode i ∧ OperandOk i s.m := by
  obtain ⟨hres, hop⟩ := h.busyLegal hb
  obtain ⟨i, hi⟩ := exists_eq_encode hres hop
  have hmodulus := h.busyModulus hb
  have hmr := h.busyMrDomain hb
  rw [hi] at hmodulus hmr
  refine ⟨i, hi, ?_⟩
  cases i with
  | mulmod => exact hmodulus (.inl rfl)
  | powmod => exact hmodulus (.inr rfl)
  | mrtest => exact hmr rfl
  | isprime => trivial

/-- Under the invariants a completion step answers the result of the command in CMD (R151). -/
theorem Invariants.exists_step_eq_deliver (h : Invariants s) (hc : s.blockCompletes = true) :
    ∃ i x y k, s.cmd = encode i ∧ step s = .next (deliver x y { s with turns := s.turns.tail, draws := k }) ∧
      HoldsResult i s.a s.b s.m x y := by
  obtain ⟨hb, -⟩ := busy_of_blockCompletes hc
  obtain ⟨i, hcmd, hm⟩ := h.command_in_progress hb
  obtain ⟨x, y, k, hexec, hres⟩ := exec_of_busy_of_operandOk (s := { s with turns := s.turns.tail }) hb hm
  have hop : decodeOpcode (opcodeField s.cmd) = some i := decodeOpcode_eq_some_iff.mpr (hcmd ▸ rfl)
  exact ⟨i, x, y, k, hcmd, (step_of_completes_of_decodeOpcode hc hop).trans hexec, hres⟩

/-! ### A host that asks nothing of the bridge -/

/-- A write answers a next state and leaves the host's list. -/
theorem exists_regWrite_eq_next (r : Reg) (v : Word) (s : State) :
    ∃ t, regWrite r v s = .next t ∧ t.host = s.host := by
  rcases regWrite_cases r v s with ⟨-, -, h⟩ | ⟨-, -, h⟩ | ⟨-, -, h⟩ | ⟨-, -, h⟩ | ⟨-, -, h | ⟨c, h⟩⟩ | ⟨-, h⟩ | ⟨-, h⟩
  case inr.inr.inr.inr.inr.inl => exact ⟨_, h, writeStatus_host v s⟩
  all_goals exact ⟨_, h, rfl⟩

/-- Such a host's turn answers a next state, and the host has nothing new to do. -/
theorem exists_hostTurn_eq_next (hd : ∀ x ∈ s.host, x.direct = true) :
    ∃ t, hostTurn s = .next t ∧ t.host ⊆ s.host := by
  have tail {act : HostAction} {rest : List HostAction} (hh : s.host = act :: rest) : rest ⊆ s.host :=
    hh ▸ List.subset_cons_self act rest
  have write (r : Reg) (v : Word) {act : HostAction} {rest : List HostAction} (hh : s.host = act :: rest) :
      ∃ t, regWrite r v { s with host := rest } = .next t ∧ t.host ⊆ s.host := by
    obtain ⟨t, ht, hhost⟩ := exists_regWrite_eq_next r v { s with host := rest }
    exact ⟨t, ht, hhost ▸ tail hh⟩
  have direct {act : HostAction} {rest : List HostAction} (hh : s.host = act :: rest) : act.direct = true :=
    hd act (hh ▸ List.mem_cons_self)
  unfold hostTurn
  split
  case h_1 => exact ⟨s, rfl, List.Subset.refl _⟩
  case h_2 r rest hh => exact ⟨_, rfl, by rw [regRead_host]; exact tail hh⟩
  case h_3 r v rest hh => exact write r v hh
  case h_4 rest hh =>
    refine ⟨_, rfl, ?_⟩
    rw [waitPoll_host]
    split
    case isTrue => exact tail hh
    case isFalse => exact List.Subset.refl _
  case h_5 addr len rest hh =>
    split
    case h_1 r _ => exact ⟨_, rfl, by rw [regRead_host]; exact tail hh⟩
    case h_2 => exact ⟨_, rfl, tail hh⟩
    case h_3 ht => exact absurd ht (of_decide_eq_true (direct hh))
  case h_6 addr len v rest hh =>
    split
    case h_1 r _ => exact write r v hh
    case h_2 => exact ⟨_, rfl, tail hh⟩
    case h_3 ht => exact absurd ht (of_decide_eq_true (direct hh))

/-! ### Progress (R152) -/

/-- From `s` to `u` the same command has been in progress, its operands untouched. -/
structure SameCommand (s u : State) : Prop where
  inv : Invariants u
  busy : u.busy = true
  a : u.a = s.a
  b : u.b = s.b
  m : u.m = s.m
  cmd : u.cmd = s.cmd

theorem SameCommand.refl (hinv : Invariants s) (hb : s.busy = true) : SameCommand s s :=
  ⟨hinv, hb, rfl, rfl, rfl, rfl⟩

theorem SameCommand.trans {t u : State} (h : SameCommand s t) (h' : SameCommand t u) : SameCommand s u :=
  ⟨h'.inv, h'.busy, h'.a.trans h.a, h'.b.trans h.b, h'.m.trans h.m, h'.cmd.trans h.cmd⟩

/-- A host's turn leaves the command in progress (R62). -/
theorem exists_step_sameCommand {ts : List Turn} (hinv : Invariants s) (hb : s.busy = true)
    (ht : s.turns = .host :: ts) (hd : ∀ x ∈ s.host, x.direct = true) :
    ∃ t, step s = .next t ∧ t.turns = ts ∧ t.host ⊆ s.host ∧ SameCommand s t := by
  have hm : s.hostMoves = true := by simp [State.hostMoves, ht]
  have hr : s.resetMoves = false := by simp [State.resetMoves, ht]
  have hc : s.blockCompletes = false := by simp [State.blockCompletes, ht]
  obtain ⟨t, hturn, hhost⟩ := exists_hostTurn_eq_next (s := { s with turns := s.turns.tail }) hd
  have hstep : step s = .next t := (step_of_hostMoves hm).trans hturn
  have e := stepEvent_of_step hstep
  obtain ⟨ha, hB, hM, hcmd, -, -⟩ := e.operands_of_busy hb hr
  have hbusy : t.busy = true := by
    by_contra hidle
    exact Bool.false_ne_true (hc.symm.trans (e.busy_cleared hr hb (Bool.eq_false_iff.mpr hidle)))
  exact ⟨t, hstep, by rw [e.turns_eq, ht]; rfl, hhost, e.invariants hinv, hbusy, ha, hB, hM, hcmd⟩

theorem run_one (c : Host.Core) (s : c.State) : c.run 1 s = c.step s := by
  rw [Host.Core.run]
  cases c.step s <;> rfl

theorem run_succ_of_step (c : Host.Core) {s t : c.State} (k : Nat) (h : c.step s = .next t) :
    c.run (k + 1) s = c.run k t := by
  rw [Host.Core.run, h]

/-- The turns listed run out or give the block its turn; meanwhile the command stays in progress. -/
theorem exists_run_eq_completion (hinv : Invariants s) (hb : s.busy = true)
    (hr : ∀ x ∈ s.turns, x.isReset = false) (hd : ∀ x ∈ s.host, x.direct = true) :
    ∃ (k : Nat) (u : State), k ≤ s.turns.length ∧ Host.Core.run Sys2Proof.core (k + 1) s = step u ∧
      u.blockCompletes = true ∧ SameCommand s u := by
  induction ht : s.turns generalizing s with
  | nil => exact ⟨0, s, le_rfl, run_one core s, by simp [State.blockCompletes, ht, hb], .refl hinv hb⟩
  | cons x ts ih =>
    cases x with
    | block => exact ⟨0, s, Nat.zero_le _, run_one core s, by simp [State.blockCompletes, ht, hb], .refl hinv hb⟩
    | reset d => exact absurd (hr (.reset d) (by simp [ht])) (by simp [Turn.isReset])
    | host =>
      obtain ⟨t, hstep, hts, hhost, hsame⟩ := exists_step_sameCommand hinv hb ht hd
      have hrt : ∀ x ∈ t.turns, x.isReset = false := fun x hx => hr x (by rw [ht, ← hts]; exact .tail _ hx)
      obtain ⟨k, u, hk, hrun, hc, hu⟩ := ih hsame.inv hsame.busy hrt (fun x hx => hd x (hhost hx)) hts
      exact ⟨k + 1, u, Nat.succ_le_succ hk, (run_succ_of_step core _ hstep).trans hrun, hc, hsame.trans hu⟩

end

end Sys2Proof.Machine

open Sys2Proof Sys2Proof.Machine

/-- Settles O23: the issue and the completion are each fixed by M. -/
theorem primalityCommandsReadOnlyM : Obligations.PrimalityCommandsReadOnlyM := by
  intro i s t s' t' hi hbusy hm hs ht
  cases hb : s.busy with
  | false =>
    rcases exec_idle_of_same_modulus i hb (hbusy ▸ hb) hm with ⟨he, he'⟩ | ⟨c, he, he'⟩ <;>
      cases he.symm.trans hs <;> cases he'.symm.trans ht <;> exact ⟨rfl, rfl, nofun, fun _ => ⟨rfl, rfl⟩⟩
  | true =>
    rcases exec_busy_of_primality hi s.m with ⟨x, h⟩ | h
    · cases (h s hb rfl).symm.trans hs
      cases (h t (hbusy ▸ hb) hm.symm).symm.trans ht
      exact ⟨rfl, rfl, fun _ => rfl, nofun⟩
    · cases (h s hb rfl).symm.trans hs

/-- Settles O30, field by field. -/
theorem statusWordLayout : Obligations.StatusWordLayout := fun s =>
  ⟨statusWord_getLsbD_flag s 0 (by decide), statusWord_getLsbD_flag s 1 (by decide),
    statusWord_getLsbD_flag s 2 (by decide), statusWord_getLsbD_flag s 3 (by decide),
    statusWord_extractLsb'_errCode s, statusWord_extractLsb'_high s⟩

/-- Settles O32, by where the transfer goes. -/
theorem otherTransfersNeverReachTheBlock : Obligations.OtherTransfersNeverReachTheBlock :=
  fun _ _ _ _ _ _ hm hh hact =>
    ⟨fun hout => step_of_transfer_outside hm hh hact (targetOf_eq_outside hout),
      fun hlow hhigh hlen hpart => step_of_transfer_bridge hm hh hact (targetOf_eq_bridge hlow hhigh hlen hpart)⟩

/-- Settles O33: the poll is a read of STATUS. -/
theorem waitPollsUntilDone : Obligations.WaitPollsUntilDone := by
  intro s rest hm hh
  rw [step_of_wait hm hh, ← hh]
  exact congrArg _ (waitPoll_spec rest { s with turns := s.turns.tail })

/-- Settles O34: the step is `resetStep`, whose STATUS word is zero. -/
theorem resetStepFromAnyState : Obligations.ResetStepFromAnyState := fun _ _ _ h =>
  ⟨_, step_of_reset h, rfl, rfl, rfl, rfl, rfl, rfl, rfl, rfl, rfl, rfl, rfl, rfl, rfl, rfl, rfl,
    statusWord_resetStep _ _, rfl⟩

/-- Settles O38, by the kind of the next event. -/
theorem stepNeverStopsUnderTheInvariants : Obligations.StepNeverStopsUnderTheInvariants := by
  intro s hinv hd
  rcases next_event s with ⟨d, ts, ht⟩ | hc | hm | ⟨ts, ht, hb⟩
  · exact ⟨_, step_of_reset ht⟩
  · obtain ⟨i, x, y, k, -, hstep, -⟩ := hinv.exists_step_eq_deliver hc
    exact ⟨_, hstep⟩
  · obtain ⟨t, hturn, -⟩ := exists_hostTurn_eq_next (s := { s with turns := s.turns.tail }) hd
    exact ⟨t, (step_of_hostMoves hm).trans hturn⟩
  · exact ⟨_, step_of_block_of_idle ht hb⟩

/-- Settles O40, event by event. -/
theorem busyEndsByCompletionOrReset : Obligations.BusyEndsByCompletionOrReset := fun _ _ hb h hb' =>
  ((stepEvent_of_step h).busy_ended hb hb').imp_left exists_turn_of_resetMoves

/-- Settles O41, event by event, for the four registers at once. -/
theorem onlyIdleHostWritesChangeOperands : Obligations.OnlyIdleHostWritesChangeOperands := by
  intro s t hr h
  have changed {r : Reg} := (stepEvent_of_step h).operand_changed hr (r := r)
  exact ⟨changed (.inl rfl), changed (.inr (.inl rfl)), changed (.inr (.inr (.inl rfl))),
    changed (.inr (.inr (.inr rfl)))⟩

/-- Settles O42: the step is a completion, which sets the flags as R24 says. -/
theorem onlyCompletionChangesResults : Obligations.OnlyCompletionChangesResults := by
  intro s t hr h hchange
  have e := stepEvent_of_step h
  have hc := e.result_changed hr hchange
  obtain ⟨hbusy, hdone, -⟩ := e.flags_of_completion hc
  exact ⟨hc, hbusy, hdone⟩

/-- Settles O45, by induction on the turns listed: each is the host's, until the block completes. -/
theorem acceptedCommandCompletes : Obligations.AcceptedCommandCompletes := by
  intro s hinv hb hr hd
  obtain ⟨k, u, hk, hrun, hc, hu⟩ := exists_run_eq_completion hinv hb hr hd
  obtain ⟨i, x, y, n, hcmd, hstep, hres⟩ := hu.inv.exists_step_eq_deliver hc
  obtain ⟨-, herr, hcode⟩ := hu.inv.busyFlags hu.busy
  rw [hu.cmd] at hcmd
  rw [hu.a, hu.b, hu.m] at hres
  have result {j : Instr} (hj : s.cmd = encode j) : HoldsResult j s.a s.b s.m x y :=
    encode_injective (hcmd.symm.trans hj) ▸ hres
  exact ⟨k + 1, _, Nat.succ_le_succ hk, hrun.trans hstep, rfl, rfl, herr, hcode, hu.a, hu.b, hu.m, hu.cmd,
    result, result, result, result⟩

/-- Settles O4, by decoding each word. -/
theorem writtenOutWordsDecode : Obligations.WrittenOutWordsDecode := by
  unfold Obligations.WrittenOutWordsDecode
  decide

/-- Settles O22: the two refusals by the command's domain, the fault by the opcode. -/
theorem completionOutsideTheDomainStops : Obligations.CompletionOutsideTheDomainStops := fun _ hb =>
  ⟨fun hm => ⟨exec_of_busy_of_zero_modulus (.inl rfl) hb hm, exec_of_busy_of_zero_modulus (.inr rfl) hb hm⟩,
    exec_mrtest_of_busy_of_not_mrDomain hb, step_of_completes_of_unassigned⟩

/-- Settles O24: the write is the issue of the word. -/
theorem stepIssuesTheDecodedCommand : Obligations.StepIssuesTheDecodedCommand := by
  intro s v rest i hm hh hb hi
  obtain rfl := decodeWord_eq_ok_iff_eq_encode.mp hi
  have issued : regWrite .cmd (encode i) { s with host := rest, turns := s.turns.tail } =
      issue (encode i) { s with host := rest, turns := s.turns.tail } := regWrite_cmd_of_idle hb
  rw [step_of_wr hm hh, issued, issue_encode]

/-- Settles O25: the completion step selects by the opcode field. -/
theorem stepCompletesTheCommandInProgress : Obligations.StepCompletesTheCommandInProgress := fun _ _ =>
  step_of_completes_of_decodeOpcode

/-- Settles O26: the presented word is the host's next write to an idle block. -/
theorem presentedWordIsIssuedNext : Obligations.PresentedWordIsIssuedNext := by
  intro s i
  rw [State.withFetchWord, tableWord_toNat]
  exact stepIssuesTheDecodedCommand (presentCommand (encode i) s) (encode i) s.host i rfl rfl rfl (decodeWord_encode i)

/-- Settles O35: the zeros of the record, and the reset step that leaves them. -/
theorem resetStateValues : Obligations.ResetStateValues :=
  ⟨rfl, rfl, rfl, rfl, rfl, rfl, rfl, rfl,
    step_of_reset (s := { State.reset with turns := [.reset ⟨0, 0, 0, 0, 0, 0⟩] }) rfl⟩

/-- Settles O36: the block is idle and holds no error. -/
theorem resetMeetsTheInvariants : Obligations.ResetMeetsTheInvariants := invariants_of_idle rfl nofun fun _ => rfl

end
